-- ==== Sys2Proof/Word.lean ====
section
/-! DEFINITION. The widths of the block: 32-bit register values and command words, bytes, byte strings
(00_scope.md R11, R12). -/

namespace Sys2Proof

/-- `u32`: a register value or a command word (00_scope.md R6, R11). -/
abbrev Word := BitVec 32

/-- `u8`: one byte (00_scope.md R11). -/
abbrev Byte := BitVec 8

/-- `bytes`: a finite sequence of `u8`, first byte first (00_scope.md R12). -/
abbrev Bytes := List Byte

/-- A compression level, 0 to 9 (00_scope.md R15; the range is 92_eei_decisions.md D6). -/
abbrev Level := Fin 10

end Sys2Proof
end

