-- ==== Sys2Proof/Syntax.lean ====
section
/-! DEFINITION. The instructions of the block, one constructor per row of opcode_table.json: the commands a
host writes to `CMD` (30_encoding.md R73), the classes of illegal command words (R75) and the accesses to the
register window (R79). A command carries its reserved bits, because a decoder keys on `OP` alone and the
command's own rule checks the rest of the word (R70, R73, R76). -/

namespace Sys2Proof

inductive Instr where
  /-- `NOP`, OP 0x00, form N (40_crc.md R108). -/
  | nop (rsv : BitVec 24)
  /-- `CRC.INIT`, OP 0x01, form N (40_crc.md R105). -/
  | crcInit (rsv : BitVec 24)
  /-- `CRC.BYTE b`, OP 0x02, form B (40_crc.md R106). -/
  | crcByte (rsv : BitVec 16) (b : Byte)
  /-- `CRC.WORD n`, OP 0x03, form W, n = k + 1 (40_crc.md R107). -/
  | crcWord (rsv : BitVec 22) (k : BitVec 2)
  /-- `DFL.START lvl`, OP 0x10, form L (41_deflate_wrapper.md R140). -/
  | dflStart (rsv : BitVec 20) (lvl : BitVec 4)
  /-- `DFL.BYTE b`, OP 0x11, form B (41_deflate_wrapper.md R141). -/
  | dflByte (rsv : BitVec 16) (b : Byte)
  /-- `DFL.WORD n`, OP 0x12, form W, n = k + 1 (41_deflate_wrapper.md R142). -/
  | dflWord (rsv : BitVec 22) (k : BitVec 2)
  /-- `DFL.FINISH`, OP 0x13, form N (41_deflate_wrapper.md R143). -/
  | dflFinish (rsv : BitVec 24)
  /-- `DFL.ABORT`, OP 0x14, form N (41_deflate_wrapper.md R144). -/
  | dflAbort (rsv : BitVec 24)
  /-- Illegal words, OP 0x04 to 0x07 (30_encoding.md R75); `rest` is the word below its fixed bits. -/
  | illegal04 (rest : BitVec 26)
  /-- Illegal words, OP 0x08 to 0x0F (30_encoding.md R75). -/
  | illegal08 (rest : BitVec 27)
  /-- Illegal words, OP 0x15 (30_encoding.md R75). -/
  | illegal15 (rest : BitVec 24)
  /-- Illegal words, OP 0x16 to 0x17 (30_encoding.md R75). -/
  | illegal16 (rest : BitVec 25)
  /-- Illegal words, OP 0x18 to 0x1F (30_encoding.md R75). -/
  | illegal18 (rest : BitVec 27)
  /-- Illegal words, OP 0x20 to 0x3F (30_encoding.md R75). -/
  | illegal20 (rest : BitVec 29)
  /-- Illegal words, OP 0x40 to 0x7F (30_encoding.md R75). -/
  | illegal40 (rest : BitVec 30)
  /-- Illegal words, OP 0x80 to 0xFF (30_encoding.md R75). -/
  | illegal80 (rest : BitVec 31)
  /-- `RD ID`, offset 0x00 (42_register_access.md R172). -/
  | rdId
  /-- `RD STATUS`, offset 0x04 (42_register_access.md R173). -/
  | rdStatus
  /-- `RD CMD`, offset 0x08 (42_register_access.md R177). -/
  | rdCmd
  /-- `RD OPND`, offset 0x0C (42_register_access.md R178). -/
  | rdOpnd
  /-- `RD CRC_STATE`, offset 0x10 (42_register_access.md R179). -/
  | rdCrcState
  /-- `RD CRC_OUT`, offset 0x14 (42_register_access.md R181). -/
  | rdCrcOut
  /-- `RD CRC_COUNT`, offset 0x18 (42_register_access.md R182). -/
  | rdCrcCount
  /-- `RD DFL_LEVEL`, offset 0x1C (42_register_access.md R183). -/
  | rdDflLevel
  /-- `RD DFL_IN_LEN`, offset 0x20 (42_register_access.md R184). -/
  | rdDflInLen
  /-- `RD DFL_OUT_LEN`, offset 0x24 (42_register_access.md R185). -/
  | rdDflOutLen
  /-- `RD DFL_OUT_PTR`, offset 0x28 (42_register_access.md R186). -/
  | rdDflOutPtr
  /-- `RD DFL_OUT_DATA`, offset 0x2C (42_register_access.md R180). -/
  | rdDflOutData
  /-- `RD DFL_ADLER`, offset 0x30 (42_register_access.md R187). -/
  | rdDflAdler
  /-- `RD ERR_CAUSE`, offset 0x34 (42_register_access.md R188). -/
  | rdErrCause
  /-- `RD ERR_CMD`, offset 0x38 (42_register_access.md R189). -/
  | rdErrCmd
  /-- `RD` of the reserved offset 0x3C (42_register_access.md R190). -/
  | rdReserved3C
  /-- `RD` of a reserved offset 0x40 to 0x7C, word index 16 + i (42_register_access.md R190). -/
  | rdReserved40 (i : BitVec 4)
  /-- `RD` of a reserved offset 0x80 to 0xFC, word index 32 + i (42_register_access.md R190). -/
  | rdReserved80 (i : BitVec 5)
  /-- `WR ID, v`, offset 0x00 (42_register_access.md R171). -/
  | wrId (v : Word)
  /-- `WR STATUS, v`, offset 0x04 (42_register_access.md R175). -/
  | wrStatus (v : Word)
  /-- `WR CMD, w`, offset 0x08 (42_register_access.md R176). -/
  | wrCmd (w : Word)
  /-- `WR OPND, v`, offset 0x0C (42_register_access.md R174). -/
  | wrOpnd (v : Word)
  /-- `WR CRC_STATE, v`, offset 0x10 (42_register_access.md R171). -/
  | wrCrcState (v : Word)
  /-- `WR CRC_OUT, v`, offset 0x14 (42_register_access.md R171). -/
  | wrCrcOut (v : Word)
  /-- `WR CRC_COUNT, v`, offset 0x18 (42_register_access.md R171). -/
  | wrCrcCount (v : Word)
  /-- `WR DFL_LEVEL, v`, offset 0x1C (42_register_access.md R171). -/
  | wrDflLevel (v : Word)
  /-- `WR DFL_IN_LEN, v`, offset 0x20 (42_register_access.md R171). -/
  | wrDflInLen (v : Word)
  /-- `WR DFL_OUT_LEN, v`, offset 0x24 (42_register_access.md R171). -/
  | wrDflOutLen (v : Word)
  /-- `WR DFL_OUT_PTR, v`, offset 0x28 (42_register_access.md R171). -/
  | wrDflOutPtr (v : Word)
  /-- `WR DFL_OUT_DATA, v`, offset 0x2C (42_register_access.md R171). -/
  | wrDflOutData (v : Word)
  /-- `WR DFL_ADLER, v`, offset 0x30 (42_register_access.md R171). -/
  | wrDflAdler (v : Word)
  /-- `WR ERR_CAUSE, v`, offset 0x34 (42_register_access.md R171). -/
  | wrErrCause (v : Word)
  /-- `WR ERR_CMD, v`, offset 0x38 (42_register_access.md R171). -/
  | wrErrCmd (v : Word)
  /-- `WR` of the reserved offset 0x3C (42_register_access.md R171). -/
  | wrReserved3C (v : Word)
  /-- `WR` of a reserved offset 0x40 to 0x7C, word index 16 + i (42_register_access.md R171). -/
  | wrReserved40 (i : BitVec 4) (v : Word)
  /-- `WR` of a reserved offset 0x80 to 0xFC, word index 32 + i (42_register_access.md R171). -/
  | wrReserved80 (i : BitVec 5) (v : Word)
deriving DecidableEq, Repr

end Sys2Proof
end

