-- ==== Sys2Proof/WellFormed.lean ====
section
/-! DEFINITION. Which instructions are well formed: the accesses of the register window, all of them, and the
commands whose words are the legal words of 30_encoding.md R73, that is those an assembler emits (R81). An
ill-formed command is not refused by the block: its meaning records `OPERAND` (R76) or `ILLEGAL` (R75). -/

namespace Sys2Proof

/-- The reserved bits of the command are 0 (30_encoding.md R71, R76); an access and an illegal word have no
reserved field. -/
def Instr.reservedZero : Instr → Bool
  | .nop rsv | .crcInit rsv | .dflFinish rsv | .dflAbort rsv => rsv == 0
  | .crcByte rsv _ | .dflByte rsv _ => rsv == 0
  | .crcWord rsv _ | .dflWord rsv _ => rsv == 0
  | .dflStart rsv _ => rsv == 0
  | _ => true

/-- The level of `DFL.START` is 0 to 9 (30_encoding.md R71 form L). -/
def Instr.levelLegal : Instr → Bool
  | .dflStart _ lvl => decide (lvl.toNat ≤ 9)
  | _ => true

/-- The command's `OP` is one of the nine assigned opcodes (30_encoding.md R73, R75). -/
def Instr.opcodeAssigned : Instr → Bool
  | .illegal04 _ | .illegal08 _ | .illegal15 _ | .illegal16 _ => false
  | .illegal18 _ | .illegal20 _ | .illegal40 _ | .illegal80 _ => false
  | _ => true

/-- All three checks. -/
def Instr.wellFormed (i : Instr) : Bool :=
  i.opcodeAssigned && i.reservedZero && i.levelLegal

/-- The instruction is a command, the data of a `CMD` write, rather than an access of the window
(30_encoding.md R70, R79). -/
def Instr.isCommand : Instr → Bool
  | .nop _ | .crcInit _ | .crcByte _ _ | .crcWord _ _ => true
  | .dflStart _ _ | .dflByte _ _ | .dflWord _ _ | .dflFinish _ | .dflAbort _ => true
  | .illegal04 _ | .illegal08 _ | .illegal15 _ | .illegal16 _ => true
  | .illegal18 _ | .illegal20 _ | .illegal40 _ | .illegal80 _ => true
  | _ => false

end Sys2Proof
end

