-- ==== Sys2Proof/Decode.lean ====
section
/-! DEFINITION. Decoding and encoding. A command is one 32-bit word (30_encoding.md R71, R78), keyed on
`OP = w[31:24]` alone (R73); an access is its key `K = {W, IDX}` and, for a write, the written value (R79).
Every command word and every access key decodes; what is rejected by name is a bit string that is neither
(`DecodeError`). -/

namespace Sys2Proof

/-! ## Command formats (30_encoding.md R71) -/

/-- Form N: `OP`, then 24 bits that must be 0. -/
def wordN (op : BitVec 8) (rsv : BitVec 24) : Word := op ++ rsv

/-- Form B: `OP`, then 16 bits that must be 0, then the byte. -/
def wordB (op : BitVec 8) (rsv : BitVec 16) (b : Byte) : Word := op ++ rsv ++ b

/-- Form W: `OP`, then 22 bits that must be 0, then k = n - 1. -/
def wordW (op : BitVec 8) (rsv : BitVec 22) (k : BitVec 2) : Word := op ++ rsv ++ k

/-- Form L: `OP`, then 20 bits that must be 0, then the level. -/
def wordL (op : BitVec 8) (rsv : BitVec 20) (lvl : BitVec 4) : Word := op ++ rsv ++ lvl

/-- The words of an illegal class: its fixed upper bits, then the bits it leaves free (R75 and the rows of
opcode_table.json). -/
def wordIllegal04 (rest : BitVec 26) : Word := 0b000001#6 ++ rest
def wordIllegal08 (rest : BitVec 27) : Word := 0b00001#5 ++ rest
def wordIllegal15 (rest : BitVec 24) : Word := 0x15#8 ++ rest
def wordIllegal16 (rest : BitVec 25) : Word := 0b0001011#7 ++ rest
def wordIllegal18 (rest : BitVec 27) : Word := 0b00011#5 ++ rest
def wordIllegal20 (rest : BitVec 29) : Word := 0b001#3 ++ rest
def wordIllegal40 (rest : BitVec 30) : Word := 0b01#2 ++ rest
def wordIllegal80 (rest : BitVec 31) : Word := 0b1#1 ++ rest

/-! ## The opcode map (30_encoding.md R73) -/

/-- The rows of the opcode map: the nine assigned opcodes and the classes of unassigned ones, as the rows of
opcode_table.json divide them. -/
inductive Opcode where
  | nop
  | crcInit
  | crcByte
  | crcWord
  | dflStart
  | dflByte
  | dflWord
  | dflFinish
  | dflAbort
  | illegal04
  | illegal08
  | illegal15
  | illegal16
  | illegal18
  | illegal20
  | illegal40
  | illegal80
deriving DecidableEq, Repr

/-- The row of the opcode map that `OP` selects (R73). -/
def opcodeOf (op : BitVec 8) : Opcode :=
  if op = 0x00#8 then .nop
  else if op = 0x01#8 then .crcInit
  else if op = 0x02#8 then .crcByte
  else if op = 0x03#8 then .crcWord
  else if op ≤ 0x07#8 then .illegal04
  else if op ≤ 0x0F#8 then .illegal08
  else if op = 0x10#8 then .dflStart
  else if op = 0x11#8 then .dflByte
  else if op = 0x12#8 then .dflWord
  else if op = 0x13#8 then .dflFinish
  else if op = 0x14#8 then .dflAbort
  else if op = 0x15#8 then .illegal15
  else if op ≤ 0x17#8 then .illegal16
  else if op ≤ 0x1F#8 then .illegal18
  else if op ≤ 0x3F#8 then .illegal20
  else if op ≤ 0x7F#8 then .illegal40
  else .illegal80

/-- What to do with each kind of command word, the word's fields given to each. -/
structure CommandArms (α : Type) where
  nop       : BitVec 24 → α
  crcInit   : BitVec 24 → α
  crcByte   : BitVec 16 → Byte → α
  crcWord   : BitVec 22 → BitVec 2 → α
  dflStart  : BitVec 20 → BitVec 4 → α
  dflByte   : BitVec 16 → Byte → α
  dflWord   : BitVec 22 → BitVec 2 → α
  dflFinish : BitVec 24 → α
  dflAbort  : BitVec 24 → α
  illegal04 : BitVec 26 → α
  illegal08 : BitVec 27 → α
  illegal15 : BitVec 24 → α
  illegal16 : BitVec 25 → α
  illegal18 : BitVec 27 → α
  illegal20 : BitVec 29 → α
  illegal40 : BitVec 30 → α
  illegal80 : BitVec 31 → α

/-- The opcode map, once: the arm that `OP(w)` selects, applied to the fields of w. The decoder and the
meaning of `WR CMD` both read it (30_encoding.md R70, R73). -/
def onCommand {α : Type} (w : Word) (arms : CommandArms α) : α :=
  match opcodeOf (w.extractLsb' 24 8) with
  | .nop => arms.nop (w.extractLsb' 0 24)
  | .crcInit => arms.crcInit (w.extractLsb' 0 24)
  | .crcByte => arms.crcByte (w.extractLsb' 8 16) (w.extractLsb' 0 8)
  | .crcWord => arms.crcWord (w.extractLsb' 2 22) (w.extractLsb' 0 2)
  | .dflStart => arms.dflStart (w.extractLsb' 4 20) (w.extractLsb' 0 4)
  | .dflByte => arms.dflByte (w.extractLsb' 8 16) (w.extractLsb' 0 8)
  | .dflWord => arms.dflWord (w.extractLsb' 2 22) (w.extractLsb' 0 2)
  | .dflFinish => arms.dflFinish (w.extractLsb' 0 24)
  | .dflAbort => arms.dflAbort (w.extractLsb' 0 24)
  | .illegal04 => arms.illegal04 (w.extractLsb' 0 26)
  | .illegal08 => arms.illegal08 (w.extractLsb' 0 27)
  | .illegal15 => arms.illegal15 (w.extractLsb' 0 24)
  | .illegal16 => arms.illegal16 (w.extractLsb' 0 25)
  | .illegal18 => arms.illegal18 (w.extractLsb' 0 27)
  | .illegal20 => arms.illegal20 (w.extractLsb' 0 29)
  | .illegal40 => arms.illegal40 (w.extractLsb' 0 30)
  | .illegal80 => arms.illegal80 (w.extractLsb' 0 31)

/-- The instruction a command word is (30_encoding.md R70, R73, R75). -/
def decodeCommand (w : Word) : Instr :=
  onCommand w
    { nop := .nop, crcInit := .crcInit, crcByte := .crcByte, crcWord := .crcWord
      dflStart := .dflStart, dflByte := .dflByte, dflWord := .dflWord
      dflFinish := .dflFinish, dflAbort := .dflAbort
      illegal04 := .illegal04, illegal08 := .illegal08, illegal15 := .illegal15
      illegal16 := .illegal16, illegal18 := .illegal18, illegal20 := .illegal20
      illegal40 := .illegal40, illegal80 := .illegal80 }

/-! ## The access keys (30_encoding.md R79, the register map 10_state.md R20) -/

/-- The read of word index `idx = off[7:2]`. -/
def decodeRead (idx : BitVec 6) : Instr :=
  match idx.toNat with
  | 0x00 => .rdId
  | 0x01 => .rdStatus
  | 0x02 => .rdCmd
  | 0x03 => .rdOpnd
  | 0x04 => .rdCrcState
  | 0x05 => .rdCrcOut
  | 0x06 => .rdCrcCount
  | 0x07 => .rdDflLevel
  | 0x08 => .rdDflInLen
  | 0x09 => .rdDflOutLen
  | 0x0A => .rdDflOutPtr
  | 0x0B => .rdDflOutData
  | 0x0C => .rdDflAdler
  | 0x0D => .rdErrCause
  | 0x0E => .rdErrCmd
  | 0x0F => .rdReserved3C
  | _ =>
    if idx.extractLsb' 5 1 = 1#1 then .rdReserved80 (idx.extractLsb' 0 5)
    else .rdReserved40 (idx.extractLsb' 0 4)

/-- The write of `v` to word index `idx = off[7:2]`. -/
def decodeWrite (idx : BitVec 6) (v : Word) : Instr :=
  match idx.toNat with
  | 0x00 => .wrId v
  | 0x01 => .wrStatus v
  | 0x02 => .wrCmd v
  | 0x03 => .wrOpnd v
  | 0x04 => .wrCrcState v
  | 0x05 => .wrCrcOut v
  | 0x06 => .wrCrcCount v
  | 0x07 => .wrDflLevel v
  | 0x08 => .wrDflInLen v
  | 0x09 => .wrDflOutLen v
  | 0x0A => .wrDflOutPtr v
  | 0x0B => .wrDflOutData v
  | 0x0C => .wrDflAdler v
  | 0x0D => .wrErrCause v
  | 0x0E => .wrErrCmd v
  | 0x0F => .wrReserved3C v
  | _ =>
    if idx.extractLsb' 5 1 = 1#1 then .wrReserved80 (idx.extractLsb' 0 5) v
    else .wrReserved40 (idx.extractLsb' 0 4) v

/-! ## Encoded instructions -/

/-- An encoded instruction: a command word, or an access of word index `idx` with, for a write, the value
the port carries (30_encoding.md R78, R79; 20_memory.md R51, R52). -/
inductive Code where
  | command (w : Word)
  | read (idx : BitVec 6)
  | write (idx : BitVec 6) (v : Word)
deriving DecidableEq, Repr

/-- The access key `K = {W, IDX}`; a command word has none (30_encoding.md R79). -/
def Code.key : Code → Option (BitVec 7)
  | .command _ => none
  | .read idx => some (0#1 ++ idx)
  | .write idx _ => some (1#1 ++ idx)

/-- The decoder. -/
def decode : Code → Instr
  | .command w => decodeCommand w
  | .read idx => decodeRead idx
  | .write idx v => decodeWrite idx v

/-- The encoder, from the tables of 30_encoding.md R71, R73, R75, R79. -/
def encode : Instr → Code
  | .nop rsv => .command (wordN 0x00#8 rsv)
  | .crcInit rsv => .command (wordN 0x01#8 rsv)
  | .crcByte rsv b => .command (wordB 0x02#8 rsv b)
  | .crcWord rsv k => .command (wordW 0x03#8 rsv k)
  | .dflStart rsv lvl => .command (wordL 0x10#8 rsv lvl)
  | .dflByte rsv b => .command (wordB 0x11#8 rsv b)
  | .dflWord rsv k => .command (wordW 0x12#8 rsv k)
  | .dflFinish rsv => .command (wordN 0x13#8 rsv)
  | .dflAbort rsv => .command (wordN 0x14#8 rsv)
  | .illegal04 rest => .command (wordIllegal04 rest)
  | .illegal08 rest => .command (wordIllegal08 rest)
  | .illegal15 rest => .command (wordIllegal15 rest)
  | .illegal16 rest => .command (wordIllegal16 rest)
  | .illegal18 rest => .command (wordIllegal18 rest)
  | .illegal20 rest => .command (wordIllegal20 rest)
  | .illegal40 rest => .command (wordIllegal40 rest)
  | .illegal80 rest => .command (wordIllegal80 rest)
  | .rdId => .read 0x00#6
  | .rdStatus => .read 0x01#6
  | .rdCmd => .read 0x02#6
  | .rdOpnd => .read 0x03#6
  | .rdCrcState => .read 0x04#6
  | .rdCrcOut => .read 0x05#6
  | .rdCrcCount => .read 0x06#6
  | .rdDflLevel => .read 0x07#6
  | .rdDflInLen => .read 0x08#6
  | .rdDflOutLen => .read 0x09#6
  | .rdDflOutPtr => .read 0x0A#6
  | .rdDflOutData => .read 0x0B#6
  | .rdDflAdler => .read 0x0C#6
  | .rdErrCause => .read 0x0D#6
  | .rdErrCmd => .read 0x0E#6
  | .rdReserved3C => .read 0x0F#6
  | .rdReserved40 i => .read (0b01#2 ++ i)
  | .rdReserved80 i => .read (0b1#1 ++ i)
  | .wrId v => .write 0x00#6 v
  | .wrStatus v => .write 0x01#6 v
  | .wrCmd w => .write 0x02#6 w
  | .wrOpnd v => .write 0x03#6 v
  | .wrCrcState v => .write 0x04#6 v
  | .wrCrcOut v => .write 0x05#6 v
  | .wrCrcCount v => .write 0x06#6 v
  | .wrDflLevel v => .write 0x07#6 v
  | .wrDflInLen v => .write 0x08#6 v
  | .wrDflOutLen v => .write 0x09#6 v
  | .wrDflOutPtr v => .write 0x0A#6 v
  | .wrDflOutData v => .write 0x0B#6 v
  | .wrDflAdler v => .write 0x0C#6 v
  | .wrErrCause v => .write 0x0D#6 v
  | .wrErrCmd v => .write 0x0E#6 v
  | .wrReserved3C v => .write 0x0F#6 v
  | .wrReserved40 i v => .write (0b01#2 ++ i) v
  | .wrReserved80 i v => .write (0b1#1 ++ i) v

/-! ## Bit strings -/

/-- Why a bit string is no encoded instruction. -/
inductive DecodeError where
  /-- It has more bits set than the length it is said to have. -/
  | valueTooWide
  /-- One byte whose bit 7 is set: access keys have 7 bits (30_encoding.md R79). -/
  | notAnAccessKey
  /-- A length that is neither an access key's, a command word's, nor a key's with its 32 data bits. -/
  | noSuchLength
deriving DecidableEq, Repr

/-- The access with key `key`, whose data word is `v` (a read carries none). -/
def Code.ofKey (key : BitVec 7) (v : Word) : Code :=
  if key.extractLsb' 6 1 = 1#1 then .write (key.extractLsb' 0 6) v else .read (key.extractLsb' 0 6)

/-- The encoded instruction in `nbits` bits numbered as opcode_table.json numbers them: up to 8 bits are an
access key (bit 7 clear, the data word 0), up to 32 a command word, up to 40 an access key in bits [7:0] and
its data word in bits [39:8] (assumption log 8). -/
def Code.ofBits (nbits w : Nat) : Except DecodeError Code :=
  if w ≥ 2 ^ nbits then .error .valueTooWide
  else if nbits = 0 ∨ nbits > 40 then .error .noSuchLength
  else if 8 < nbits ∧ nbits ≤ 32 then .ok (.command (BitVec.ofNat 32 w))
  else if w % 256 ≥ 128 then .error .notAnAccessKey
  else .ok (.ofKey (BitVec.ofNat 7 w) (BitVec.ofNat 32 (w / 256)))

/-- Decoding of any bit string: an instruction, or the reason it is none. -/
def decodeBits (nbits w : Nat) : Except DecodeError Instr :=
  (Code.ofBits nbits w).map decode

/-- The instruction of a row of opcode_table.json whose bits are `w`. -/
def decodeTableWord (nbits w : Nat) : Option Instr :=
  match decodeBits nbits w with
  | .ok i => some i
  | .error _ => none

end Sys2Proof
end

