-- ==== Sys2Proof/Config.lean ====
section
/-! DEFINITION. The parameters of the block (00_scope.md R7): the window base and the buffer capacities,
which a machine carries in its state as fixed data, and the open deflate function. -/

namespace Sys2Proof

/-- The parameters of one block that are plain data (00_scope.md R7). No step changes them
(assumption log 2). -/
structure Config where
  /-- Bits [31:8] of `BASE`; `BASE` is a multiple of 256, so its low 8 bits are 0. -/
  window : BitVec 24
  /-- `IN_CAP`, the capacity of `IN_BUF` in bytes. -/
  inCap  : Nat
  /-- `OUT_CAP`, the capacity of `OUT_BUF` in bytes. -/
  outCap : Nat
deriving DecidableEq, Repr

/-- `BASE`, the host address of register offset 0x00 (00_scope.md R7). -/
def Config.base (c : Config) : Word := c.window ++ 0#8

/-- The bounds 00_scope.md R7 puts on the capacities. -/
abbrev Config.Valid (c : Config) : Prop :=
  1 ≤ c.inCap ∧ c.inCap ≤ 2 ^ 32 - 1 ∧ 11 ≤ c.outCap ∧ c.outCap ≤ 2 ^ 32 - 1

/-- The values 00_scope.md R7 takes for `IN_CAP` and `OUT_CAP`. `BASE` is OPEN there; the 0 here is a
DESIGN CHOICE, unsafe (assumption log 3): no statement rests on it. -/
def Config.default : Config := { window := 0#24, inCap := 262400, outCap := 524800 }

/-- `DEFLATE_FN(level, d)`, the raw deflate bitstream for levels 1 to 9 (00_scope.md R7,
41_deflate_wrapper.md R133). A free value: uninterpreted, so nothing holds of its bytes or their number.
P2 (deterministic) and P3 (total) hold of any function of this type; P1 (decodable) is a premise
(`Safety.DeflateDecodable`). It is never applied to level 0 (assumption log 4). -/
opaque Config.deflateFn : Level → Bytes → Bytes

end Sys2Proof
end

