-- ==== Sys2Proof/Machine/State.lean ====
section
/-! DEFINITION. The state of the machine: the block's record (10_state.md R45), its parameters
(00_scope.md R7), and the outside world it meets at its one port; the reasons a step can stop; the state
after reset (10_state.md R47). -/

namespace Sys2Proof.Machine

/-- The wrapper phase, `STATUS.PHASE` (10_state.md R25); the value 3 has no name here, as R25 allows. -/
inductive Phase where
  | idle
  | collect
  | done
deriving DecidableEq, Repr

/-- The causes of an error, codes 1 to 5 (60_exceptions.md R200). Code 0, no error, is the absence of one. -/
inductive Cause where
  | illegal
  | operand
  | seq
  | inOvf
  | outOvf
deriving DecidableEq, Repr

/-- What the outside world does at the block, one event at a time (20_memory.md R50): a host access of
`bytes` bytes at a host address, or the platform driving the reset input (70_reset_and_hazards.md R230). -/
inductive Event where
  | read (addr : Word) (bytes : Nat)
  | write (addr : Word) (bytes : Nat) (v : Word)
  | reset (asserted : Bool)
deriving DecidableEq, Repr

structure State where
  /-- The parameters `BASE`, `IN_CAP`, `OUT_CAP` (00_scope.md R7); no step changes them. -/
  cfg      : Config
  /-- `OPND` (10_state.md R29). -/
  opnd     : Word
  /-- `CRC_STATE` (10_state.md R30). -/
  crcState : Word
  /-- `CRC_COUNT` (10_state.md R34). -/
  crcCount : Word
  /-- `PHASE` (10_state.md R25). -/
  phase    : Phase
  /-- `DFL_LEVEL` (10_state.md R35). -/
  level    : Level
  /-- `IN_BUF` (10_state.md R32, R33). -/
  inBuf    : Bytes
  /-- `OUT_BUF` (10_state.md R32, R33). -/
  outBuf   : Bytes
  /-- `DFL_OUT_PTR` (10_state.md R38). -/
  outPtr   : Word
  /-- `DFL_ADLER` (10_state.md R40). -/
  adler    : Word
  /-- The error bits `STATUS[12:8]`; bit i is `STATUS[8 + i]` (10_state.md R24, R27). -/
  err      : BitVec 5
  /-- `ERR_CAUSE`; none is code 0 (10_state.md R41). -/
  errCause : Option Cause
  /-- `ERR_CMD` (10_state.md R42). -/
  errCmd   : Word
  /-- The model's own: the reset input is held asserted (70_reset_and_hazards.md R230). -/
  inReset  : Bool
  /-- The model's own: the events still to come at the port, oldest first (assumption log 1). -/
  pending  : List Event
  /-- The model's own: the values the host's reads have returned, newest first (00_scope.md R9,
  assumption log 1). -/
  returned : List Word
deriving DecidableEq, Repr

/-- The block never stops: an error is recorded and the next command executes (60_exceptions.md R205,
R208), and no access is answered with a bus error (R202). So there is no fault: nobody raises one. -/
inductive Fault where
deriving DecidableEq, Repr

/-- The accesses to which the spec gives no step. -/
inductive Refusal where
  /-- An instruction without a meaning yet. Raised by `exec` only, and by no arm of it. Safe. -/
  | notModelled (mnemonic : String)
  /-- Raised by `step` for an access that is not 4 bytes wide (20_memory.md R51, 93 I8). Safe. -/
  | notWordAccess
  /-- Raised by `step` for an address that is not a multiple of 4 (20_memory.md R51, 93 I8). Safe. -/
  | misalignedAccess
  /-- Raised by `step` for an address outside `BASE` to `BASE + 0xFF` (20_memory.md R51, R56, 93 I8). Safe. -/
  | outOfWindow
  /-- Raised by `step` for an access while reset is asserted (70_reset_and_hazards.md R230, R241, 93 I9). Safe. -/
  | accessDuringReset
deriving DecidableEq, Repr

/-- The state when reset is released (10_state.md R47, 70_reset_and_hazards.md R230), with the parameters of
`Config.default` and nothing yet at the port (assumption log 1). -/
def State.reset : State :=
  { cfg := Config.default
    opnd := 0x00000000#32
    crcState := 0xFFFFFFFF#32
    crcCount := 0x00000000#32
    phase := .idle
    level := 0
    inBuf := []
    outBuf := []
    outPtr := 0x00000000#32
    adler := 0x00000001#32
    err := 0#5
    errCause := none
    errCmd := 0x00000000#32
    inReset := false
    pending := []
    returned := [] }

end Sys2Proof.Machine
end

