-- ==== Sys2Proof/Machine/Operands.lean ====
section
/-! DEFINITION. Operands and byte orders: the bytes of a word operand (20_memory.md R54), the byte strings
`BE16`, `BE32`, `LE16` (00_scope.md R12), the addresses of the window (10_state.md R20, 20_memory.md R56). -/

namespace Sys2Proof.Machine

/-- `BE32(v)` (00_scope.md R12). -/
def be32 (v : Word) : Bytes :=
  [v.extractLsb' 24 8, v.extractLsb' 16 8, v.extractLsb' 8 8, v.extractLsb' 0 8]

/-- `BE16(v)` (00_scope.md R12). -/
def be16 (v : BitVec 16) : Bytes := [v.extractLsb' 8 8, v.extractLsb' 0 8]

/-- `LE16(v)` (00_scope.md R12). -/
def le16 (v : BitVec 16) : Bytes := [v.extractLsb' 0 8, v.extractLsb' 8 8]

/-- The four bytes of a word, least significant first: the order of the residue rule (40_crc.md R112). -/
def le32 (v : Word) : Bytes :=
  [v.extractLsb' 0 8, v.extractLsb' 8 8, v.extractLsb' 16 8, v.extractLsb' 24 8]

/-- Form W: the count n = k + 1 (30_encoding.md R72). -/
def wordCount (k : BitVec 2) : Nat := k.toNat + 1

/-- The first n bytes of the word operand `v`, most significant first (20_memory.md R54). -/
def operandBytes (v : Word) (n : Nat) : Bytes := (be32 v).take n

/-- Form L: the level, when it is 0 to 9 (30_encoding.md R72). -/
def levelOf (lvl : BitVec 4) : Option Level :=
  if h : lvl.toNat < 10 then some ⟨lvl.toNat, h⟩ else none

/-- The host address of word index `idx`: `BASE + 4 * idx` (10_state.md R20, 30_encoding.md R79). -/
def busAddr (c : Config) (idx : BitVec 6) : Word := c.window ++ (idx ++ 0#2)

end Sys2Proof.Machine
end

