-- ==== Sys2Proof/Machine/Checksum.lean ====
section
/-! DEFINITION. The CRC function (40_crc.md R100 to R102). -/

namespace Sys2Proof.Machine

/-- `POLY`, the reflected polynomial (00_scope.md R6). -/
def crcPoly : Word := 0xEDB88320#32

/-- `CRC_INIT` (00_scope.md R6). -/
def crcInitValue : Word := 0xFFFFFFFF#32

/-- `CRC_XOROUT`, the final complement (00_scope.md R6). -/
def crcXorOut : Word := 0xFFFFFFFF#32

/-- One turn of the loop of 40_crc.md R100. The rule's two branches share their shift; written with the branch
inside, a symbolic turn unfolds to an exclusive or at once (`crcShift_eq` is the rule's own form). -/
def crcShift (c : Word) : Word :=
  (c >>> 1) ^^^ (if c.extractLsb' 0 1 = 1#1 then crcPoly else 0#32)

/-- `n` turns of the loop. -/
def crcShifts : Nat → Word → Word
  | 0, c => c
  | n + 1, c => crcShifts n (crcShift c)

/-- `CRC_STEP(c, b)` (40_crc.md R100). -/
def crcStep (c : Word) (b : Byte) : Word := crcShifts 8 (c ^^^ b.setWidth 32)

/-- `CRC_TABLE[i]` (40_crc.md R101). -/
def crcTable (i : Byte) : Word := crcStep (i.setWidth 32) 0#8

/-- `CRC_FOLD(c, s)` (40_crc.md R102). -/
def crcFold : Word → Bytes → Word
  | c, [] => c
  | c, b :: t => crcFold (crcStep c b) t

/-- `CRC32(s)` (40_crc.md R102). -/
def crc32 (s : Bytes) : Word := crcFold crcInitValue s ^^^ crcXorOut

end Sys2Proof.Machine
end

