-- ==== Sys2Proof/Machine/Envelope.lean ====
section
/-! DEFINITION. The envelope (41_deflate_wrapper.md R131 to R134). -/

namespace Sys2Proof.Machine

/-- `ADLER_MOD` (00_scope.md R6). -/
def adlerMod : Nat := 65521

/-- `ADLER_STEP(a, b)` (41_deflate_wrapper.md R131). -/
def adlerStep (a : Word) (b : Byte) : Word :=
  let lo := ((a.extractLsb' 0 16).toNat + b.toNat) % adlerMod
  let hi := ((a.extractLsb' 16 16).toNat + lo) % adlerMod
  BitVec.ofNat 32 (hi * 2 ^ 16 + lo)

/-- The fold of `ADLER_STEP` over a byte string. -/
def adlerFold : Word → Bytes → Word
  | a, [] => a
  | a, b :: t => adlerFold (adlerStep a b) t

/-- `ADLER` before any byte: 0x00000001. -/
def adlerInit : Word := 0x00000001#32

/-- `A32(s)` (41_deflate_wrapper.md R131). -/
def a32 (s : Bytes) : Word := adlerFold adlerInit s

/-- The stored-block maximum (00_scope.md R6). -/
def storedMax : Nat := 65535

/-- One stored block of at most 65535 bytes: header byte, LEN, NLEN, data (41_deflate_wrapper.md R132). -/
def storedBlock (final : Bool) (d : Bytes) : Bytes :=
  let k : BitVec 16 := BitVec.ofNat 16 d.length
  (if final then 0x01#8 else 0x00#8) :: (le16 k ++ le16 (k ^^^ 0xFFFF#16) ++ d)

/-- The loop of 41_deflate_wrapper.md R132 over the bytes still to store; the first argument bounds the
number of turns. -/
def storedBlocks : Nat → Bytes → Bytes
  | 0, _ => []
  | fuel + 1, d =>
    if d.length ≤ storedMax then storedBlock true d
    else storedBlock false (d.take storedMax) ++ storedBlocks fuel (d.drop storedMax)

/-- `STORED(d)` (41_deflate_wrapper.md R132). An empty string gives one empty final block, which is what one
turn of the loop makes of it. -/
def stored (d : Bytes) : Bytes := storedBlocks (d.length + 1) d

/-- `FLG(level)` (41_deflate_wrapper.md R134). -/
def flg (l : Level) : Byte :=
  if l.val ≤ 1 then 0x01#8 else if l.val ≤ 5 then 0x5E#8 else if l.val = 6 then 0x9C#8 else 0xDA#8

/-- `BODY(level, d)`: stored blocks at level 0, `DEFLATE_FN` at levels 1 to 9 (41_deflate_wrapper.md R134,
R143). -/
def deflateBody (l : Level) (d : Bytes) : Bytes :=
  if l = 0 then stored d else Config.deflateFn l d

/-- Header, body and trailer, the trailer holding `adler` (41_deflate_wrapper.md R143). -/
def envelopeWith (l : Level) (d : Bytes) (adler : Word) : Bytes :=
  [0x78#8, flg l] ++ deflateBody l d ++ be32 adler

/-- `ENVELOPE(level, d)` (41_deflate_wrapper.md R134). -/
def envelope (l : Level) (d : Bytes) : Bytes := envelopeWith l d (a32 d)

end Sys2Proof.Machine
end

