-- ==== Sys2Proof/Machine/Flags.lean ====
section
/-! DEFINITION. `STATUS` and the cause codes (10_state.md R24 to R27, 60_exceptions.md R200). -/

namespace Sys2Proof.Machine

/-- The encoding of `STATUS.PHASE` (10_state.md R25). -/
def Phase.code : Phase → BitVec 2
  | .idle => 0#2
  | .collect => 1#2
  | .done => 2#2

/-- The cause code (60_exceptions.md R200). -/
def Cause.code : Cause → BitVec 4
  | .illegal => 1#4
  | .operand => 2#4
  | .seq => 3#4
  | .inOvf => 4#4
  | .outOvf => 5#4

/-- The error bit of a cause, `STATUS[7 + code]` (60_exceptions.md R203), as a bit of `STATUS[12:8]`. -/
def Cause.bit : Cause → BitVec 5
  | .illegal => 0b00001#5
  | .operand => 0b00010#5
  | .seq => 0b00100#5
  | .inOvf => 0b01000#5
  | .outOvf => 0b10000#5

/-- The code `ERR_CAUSE` holds, 0 for no error (10_state.md R41). -/
def causeCode : Option Cause → BitVec 4
  | none => 0#4
  | some c => c.code

/-- `STATUS.OUT_AVAIL` (10_state.md R26). -/
def State.outAvail (s : State) : Bool :=
  decide (s.phase = .done ∧ s.outPtr.toNat < s.outBuf.length)

/-- The word a read of `STATUS` returns (10_state.md R24). -/
def State.status (s : State) : Word :=
  0#19 ++ s.err ++ 0#5 ++ BitVec.ofBool s.outAvail ++ s.phase.code

/-- The error bits a host write of `v` to `STATUS` clears: bits [12:8] of `v` (42_register_access.md R175). -/
def clearMask (v : Word) : BitVec 5 := v.extractLsb' 8 5

end Sys2Proof.Machine
end

