-- ==== Sys2Proof/Machine/Ops.lean ====
section
/-! DEFINITION. The operations the meanings share: recording an error and acknowledging it, feeding the CRC
unit, the wrapper's buffer operations, answering a read, the reset event. -/

namespace Sys2Proof.Machine

/-! ## Errors (60_exceptions.md section 2) -/

/-- The error record after `raise Error(c)` during command word `w` (60_exceptions.md R203). -/
def recordError (c : Cause) (w : Word) (s : State) : State :=
  { s with err := s.err ||| c.bit, errCause := some c, errCmd := w }

/-- `raise Error(c)` as the end of a command: the error is recorded and the block goes on
(60_exceptions.md R203, R205, R208). -/
def raiseError (c : Cause) (w : Word) (s : State) : Host.Outcome State Fault Refusal :=
  .next (recordError c w s)

/-- The host's acknowledgement, a write of `v` to `STATUS` (42_register_access.md R175,
60_exceptions.md R209). -/
def acknowledge (v : Word) (s : State) : State :=
  let e := s.err &&& ~~~ clearMask v
  if e = 0#5 then { s with err := e, errCause := none, errCmd := 0x00000000#32 } else { s with err := e }

/-! ## The CRC unit (40_crc.md section 1) -/

/-- `FEED(b)` (40_crc.md R104). -/
def feed (b : Byte) (s : State) : State :=
  { s with crcState := crcStep s.crcState b, crcCount := s.crcCount + 1 }

/-- `FEED` of each byte in order (40_crc.md R107). -/
def feedAll : Bytes → State → State
  | [], s => s
  | b :: t, s => feedAll t (feed b s)

/-! ## The wrapper unit (41_deflate_wrapper.md R135) -/

/-- `APPEND(b)` (41_deflate_wrapper.md R135). -/
def append (b : Byte) (s : State) : State :=
  { s with inBuf := s.inBuf ++ [b], adler := adlerStep s.adler b }

/-- `APPEND` of each byte in order (41_deflate_wrapper.md R142). -/
def appendAll : Bytes → State → State
  | [], s => s
  | b :: t, s => appendAll t (append b s)

/-- `ABORT_SESSION` (41_deflate_wrapper.md R135). -/
def abortSession (s : State) : State :=
  { s with phase := .idle, inBuf := [], outBuf := [], outPtr := 0x00000000#32, adler := adlerInit }

/-- Opening a session at a level (41_deflate_wrapper.md R140). -/
def openSession (l : Level) (s : State) : State :=
  { s with phase := .collect, level := l, inBuf := [], outBuf := [], outPtr := 0x00000000#32,
           adler := adlerInit }

/-- An overflow: the session is aborted, which takes effect, and the error recorded
(41_deflate_wrapper.md R141 to R143, 60_exceptions.md R203). -/
def overflow (c : Cause) (w : Word) (s : State) : Host.Outcome State Fault Refusal :=
  raiseError c w (abortSession s)

/-- The envelope `DFL.FINISH` computes, its trailer read from `DFL_ADLER` (41_deflate_wrapper.md R143). -/
def State.finished (s : State) : Bytes := envelopeWith s.level s.inBuf s.adler

/-- The end of a session with output `z` (41_deflate_wrapper.md R143). -/
def closeSession (z : Bytes) (s : State) : State :=
  { s with phase := .done, outBuf := z, outPtr := 0x00000000#32 }

/-! ## Register accesses -/

/-- A read returns `v` to the host and does nothing else (42_register_access.md R170). -/
def answer (v : Word) (s : State) : State := { s with returned := v :: s.returned }

/-- The read of the next output byte: its value and the state with the pointer advanced, or EMPTY
(42_register_access.md R180). -/
def readOut (s : State) : State :=
  if s.phase = .done then
    match s.outBuf[s.outPtr.toNat]? with
    | some b => answer (b.setWidth 32) { s with outPtr := s.outPtr + 1 }
    | none => answer 0x00000100#32 s
  else answer 0x00000100#32 s

/-- A write the block ignores: the value is discarded (42_register_access.md R171). -/
def ignoreWrite (_v : Word) (s : State) : Host.Outcome State Fault Refusal := .next s

/-! ## The port and the reset input -/

/-- The next event has been taken off the port. -/
def popEvent (s : State) : State := { s with pending := s.pending.tail }

/-- The state when reset is released, whatever it was before (10_state.md R47,
70_reset_and_hazards.md R230). The parameters and what belongs to the host stay. -/
def resetBlock (s : State) : State :=
  { s with
    opnd := 0x00000000#32
    crcState := crcInitValue
    crcCount := 0x00000000#32
    phase := .idle
    level := 0
    inBuf := []
    outBuf := []
    outPtr := 0x00000000#32
    adler := adlerInit
    err := 0#5
    errCause := none
    errCmd := 0x00000000#32
    inReset := false }

/-- The platform drives the reset input: asserting it holds the block in reset, releasing it leaves the reset
state; releasing what is not asserted does nothing (70_reset_and_hazards.md R230, assumption log 6). -/
def driveReset (asserted : Bool) (s : State) : State :=
  if asserted then { s with inReset := true } else if s.inReset then resetBlock s else s

end Sys2Proof.Machine
end

