-- ==== Sys2Proof/Machine/CrcUnit.lean ====
section
/-! DEFINITION. The CRC unit's commands and `NOP` (40_crc.md section 2). -/

namespace Sys2Proof.Machine

/-- `NOP` (40_crc.md R108). -/
def execNop (rsv : BitVec 24) (s : State) : Host.Outcome State Fault Refusal :=
  if rsv ≠ 0#24 then raiseError .operand (wordN 0x00#8 rsv) s
  else .next s

/-- `CRC.INIT` (40_crc.md R105). -/
def execCrcInit (rsv : BitVec 24) (s : State) : Host.Outcome State Fault Refusal :=
  if rsv ≠ 0#24 then raiseError .operand (wordN 0x01#8 rsv) s
  else .next { s with crcState := crcInitValue, crcCount := 0x00000000#32 }

/-- `CRC.BYTE b` (40_crc.md R106). -/
def execCrcByte (rsv : BitVec 16) (b : Byte) (s : State) : Host.Outcome State Fault Refusal :=
  if rsv ≠ 0#16 then raiseError .operand (wordB 0x02#8 rsv b) s
  else .next (feed b s)

/-- `CRC.WORD n` (40_crc.md R107). -/
def execCrcWord (rsv : BitVec 22) (k : BitVec 2) (s : State) : Host.Outcome State Fault Refusal :=
  if rsv ≠ 0#22 then raiseError .operand (wordW 0x03#8 rsv k) s
  else .next (feedAll (operandBytes s.opnd (wordCount k)) s)

end Sys2Proof.Machine
end

