-- ==== Sys2Proof/Machine/IllegalWords.lean ====
section
/-! DEFINITION. The illegal command words: each raises `ILLEGAL` and has no other effect
(30_encoding.md R75). -/

namespace Sys2Proof.Machine

/-- A word with OP 0x04 to 0x07 (30_encoding.md R75). -/
def execIllegal04 (rest : BitVec 26) (s : State) : Host.Outcome State Fault Refusal :=
  raiseError .illegal (wordIllegal04 rest) s

/-- A word with OP 0x08 to 0x0F (30_encoding.md R75). -/
def execIllegal08 (rest : BitVec 27) (s : State) : Host.Outcome State Fault Refusal :=
  raiseError .illegal (wordIllegal08 rest) s

/-- A word with OP 0x15 (30_encoding.md R75). -/
def execIllegal15 (rest : BitVec 24) (s : State) : Host.Outcome State Fault Refusal :=
  raiseError .illegal (wordIllegal15 rest) s

/-- A word with OP 0x16 to 0x17 (30_encoding.md R75). -/
def execIllegal16 (rest : BitVec 25) (s : State) : Host.Outcome State Fault Refusal :=
  raiseError .illegal (wordIllegal16 rest) s

/-- A word with OP 0x18 to 0x1F (30_encoding.md R75). -/
def execIllegal18 (rest : BitVec 27) (s : State) : Host.Outcome State Fault Refusal :=
  raiseError .illegal (wordIllegal18 rest) s

/-- A word with OP 0x20 to 0x3F (30_encoding.md R75). -/
def execIllegal20 (rest : BitVec 29) (s : State) : Host.Outcome State Fault Refusal :=
  raiseError .illegal (wordIllegal20 rest) s

/-- A word with OP 0x40 to 0x7F (30_encoding.md R75). -/
def execIllegal40 (rest : BitVec 30) (s : State) : Host.Outcome State Fault Refusal :=
  raiseError .illegal (wordIllegal40 rest) s

/-- A word with OP 0x80 to 0xFF (30_encoding.md R75). -/
def execIllegal80 (rest : BitVec 31) (s : State) : Host.Outcome State Fault Refusal :=
  raiseError .illegal (wordIllegal80 rest) s

end Sys2Proof.Machine
end

