-- ==== Sys2Proof/Machine/RegReads.lean ====
section
/-! DEFINITION. The register reads (42_register_access.md R170, R172, R173, R177 to R190). -/

namespace Sys2Proof.Machine

/-- `RD ID` (42_register_access.md R172, 10_state.md R23). -/
def execRdId (s : State) : Host.Outcome State Fault Refusal :=
  .next (answer 0x43524344#32 s)

/-- `RD STATUS` (42_register_access.md R173, 10_state.md R24). -/
def execRdStatus (s : State) : Host.Outcome State Fault Refusal :=
  .next (answer s.status s)

/-- `RD CMD` (42_register_access.md R177, 10_state.md R28). -/
def execRdCmd (s : State) : Host.Outcome State Fault Refusal :=
  .next (answer 0x00000000#32 s)

/-- `RD OPND` (42_register_access.md R178, 10_state.md R29). -/
def execRdOpnd (s : State) : Host.Outcome State Fault Refusal :=
  .next (answer s.opnd s)

/-- `RD CRC_STATE` (42_register_access.md R179, 10_state.md R30). -/
def execRdCrcState (s : State) : Host.Outcome State Fault Refusal :=
  .next (answer s.crcState s)

/-- `RD CRC_OUT` (42_register_access.md R181, 10_state.md R31). -/
def execRdCrcOut (s : State) : Host.Outcome State Fault Refusal :=
  .next (answer (s.crcState ^^^ crcXorOut) s)

/-- `RD CRC_COUNT` (42_register_access.md R182, 10_state.md R34). -/
def execRdCrcCount (s : State) : Host.Outcome State Fault Refusal :=
  .next (answer s.crcCount s)

/-- `RD DFL_LEVEL` (42_register_access.md R183, 10_state.md R35). -/
def execRdDflLevel (s : State) : Host.Outcome State Fault Refusal :=
  .next (answer (BitVec.ofNat 32 s.level.val) s)

/-- `RD DFL_IN_LEN` (42_register_access.md R184, 10_state.md R36). -/
def execRdDflInLen (s : State) : Host.Outcome State Fault Refusal :=
  .next (answer (BitVec.ofNat 32 s.inBuf.length) s)

/-- `RD DFL_OUT_LEN` (42_register_access.md R185, 10_state.md R37). -/
def execRdDflOutLen (s : State) : Host.Outcome State Fault Refusal :=
  .next (answer (BitVec.ofNat 32 s.outBuf.length) s)

/-- `RD DFL_OUT_PTR` (42_register_access.md R186, 10_state.md R38). -/
def execRdDflOutPtr (s : State) : Host.Outcome State Fault Refusal :=
  .next (answer s.outPtr s)

/-- `RD DFL_OUT_DATA` (42_register_access.md R180, 10_state.md R39). -/
def execRdDflOutData (s : State) : Host.Outcome State Fault Refusal :=
  .next (readOut s)

/-- `RD DFL_ADLER` (42_register_access.md R187, 10_state.md R40). -/
def execRdDflAdler (s : State) : Host.Outcome State Fault Refusal :=
  .next (answer s.adler s)

/-- `RD ERR_CAUSE` (42_register_access.md R188, 10_state.md R41). -/
def execRdErrCause (s : State) : Host.Outcome State Fault Refusal :=
  .next (answer ((causeCode s.errCause).setWidth 32) s)

/-- `RD ERR_CMD` (42_register_access.md R189, 10_state.md R42). -/
def execRdErrCmd (s : State) : Host.Outcome State Fault Refusal :=
  .next (answer s.errCmd s)

/-- `RD` of offset 0x3C (42_register_access.md R190). -/
def execRdReserved3C (s : State) : Host.Outcome State Fault Refusal :=
  .next (answer 0x00000000#32 s)

/-- `RD` of an offset 0x40 to 0x7C (42_register_access.md R190). -/
def execRdReserved40 (_i : BitVec 4) (s : State) : Host.Outcome State Fault Refusal :=
  .next (answer 0x00000000#32 s)

/-- `RD` of an offset 0x80 to 0xFC (42_register_access.md R190). -/
def execRdReserved80 (_i : BitVec 5) (s : State) : Host.Outcome State Fault Refusal :=
  .next (answer 0x00000000#32 s)

end Sys2Proof.Machine
end

