-- ==== Sys2Proof/Machine/WrapperUnit.lean ====
section
/-! DEFINITION. The wrapper unit's commands (41_deflate_wrapper.md section 2). -/

namespace Sys2Proof.Machine

/-- `DFL.START lvl` (41_deflate_wrapper.md R140). -/
def execDflStart (rsv : BitVec 20) (lvl : BitVec 4) (s : State) : Host.Outcome State Fault Refusal :=
  if rsv ≠ 0#20 then raiseError .operand (wordL 0x10#8 rsv lvl) s
  else
    match levelOf lvl with
    | none => raiseError .operand (wordL 0x10#8 rsv lvl) s
    | some l =>
      if s.phase = .collect then raiseError .seq (wordL 0x10#8 rsv lvl) s
      else .next (openSession l s)

/-- `DFL.BYTE b` (41_deflate_wrapper.md R141). -/
def execDflByte (rsv : BitVec 16) (b : Byte) (s : State) : Host.Outcome State Fault Refusal :=
  if rsv ≠ 0#16 then raiseError .operand (wordB 0x11#8 rsv b) s
  else if s.phase ≠ .collect then raiseError .seq (wordB 0x11#8 rsv b) s
  else if s.inBuf.length + 1 > s.cfg.inCap then overflow .inOvf (wordB 0x11#8 rsv b) s
  else .next (append b s)

/-- `DFL.WORD n` (41_deflate_wrapper.md R142). -/
def execDflWord (rsv : BitVec 22) (k : BitVec 2) (s : State) : Host.Outcome State Fault Refusal :=
  if rsv ≠ 0#22 then raiseError .operand (wordW 0x12#8 rsv k) s
  else if s.phase ≠ .collect then raiseError .seq (wordW 0x12#8 rsv k) s
  else if s.inBuf.length + wordCount k > s.cfg.inCap then overflow .inOvf (wordW 0x12#8 rsv k) s
  else .next (appendAll (operandBytes s.opnd (wordCount k)) s)

/-- `DFL.FINISH` (41_deflate_wrapper.md R143). -/
def execDflFinish (rsv : BitVec 24) (s : State) : Host.Outcome State Fault Refusal :=
  if rsv ≠ 0#24 then raiseError .operand (wordN 0x13#8 rsv) s
  else if s.phase ≠ .collect then raiseError .seq (wordN 0x13#8 rsv) s
  else if s.finished.length > s.cfg.outCap then overflow .outOvf (wordN 0x13#8 rsv) s
  else .next (closeSession s.finished s)

/-- `DFL.ABORT` (41_deflate_wrapper.md R144). -/
def execDflAbort (rsv : BitVec 24) (s : State) : Host.Outcome State Fault Refusal :=
  if rsv ≠ 0#24 then raiseError .operand (wordN 0x14#8 rsv) s
  else .next (abortSession s)

end Sys2Proof.Machine
end

