-- ==== Sys2Proof/Machine/RegWrites.lean ====
section
/-! DEFINITION. The register writes (42_register_access.md R171, R174 to R176). -/

namespace Sys2Proof.Machine

/-- `WR ID, v`: ignored (42_register_access.md R171). -/
def execWrId (v : Word) (s : State) : Host.Outcome State Fault Refusal := ignoreWrite v s

/-- `WR STATUS, v` (42_register_access.md R175, 10_state.md R24). -/
def execWrStatus (v : Word) (s : State) : Host.Outcome State Fault Refusal :=
  .next (acknowledge v s)

/-- `WR CMD, w`: the command `w` is executed, in this one step (42_register_access.md R176, 10_state.md R28,
20_memory.md R53, 30_encoding.md R70). -/
def execWrCmd (w : Word) (s : State) : Host.Outcome State Fault Refusal :=
  onCommand w
    { nop := fun rsv => execNop rsv s
      crcInit := fun rsv => execCrcInit rsv s
      crcByte := fun rsv b => execCrcByte rsv b s
      crcWord := fun rsv k => execCrcWord rsv k s
      dflStart := fun rsv lvl => execDflStart rsv lvl s
      dflByte := fun rsv b => execDflByte rsv b s
      dflWord := fun rsv k => execDflWord rsv k s
      dflFinish := fun rsv => execDflFinish rsv s
      dflAbort := fun rsv => execDflAbort rsv s
      illegal04 := fun rest => execIllegal04 rest s
      illegal08 := fun rest => execIllegal08 rest s
      illegal15 := fun rest => execIllegal15 rest s
      illegal16 := fun rest => execIllegal16 rest s
      illegal18 := fun rest => execIllegal18 rest s
      illegal20 := fun rest => execIllegal20 rest s
      illegal40 := fun rest => execIllegal40 rest s
      illegal80 := fun rest => execIllegal80 rest s }

/-- `WR OPND, v` (42_register_access.md R174, 10_state.md R29). -/
def execWrOpnd (v : Word) (s : State) : Host.Outcome State Fault Refusal :=
  .next { s with opnd := v }

/-- `WR CRC_STATE, v`: ignored (42_register_access.md R171). -/
def execWrCrcState (v : Word) (s : State) : Host.Outcome State Fault Refusal := ignoreWrite v s

/-- `WR CRC_OUT, v`: ignored (42_register_access.md R171). -/
def execWrCrcOut (v : Word) (s : State) : Host.Outcome State Fault Refusal := ignoreWrite v s

/-- `WR CRC_COUNT, v`: ignored (42_register_access.md R171). -/
def execWrCrcCount (v : Word) (s : State) : Host.Outcome State Fault Refusal := ignoreWrite v s

/-- `WR DFL_LEVEL, v`: ignored (42_register_access.md R171). -/
def execWrDflLevel (v : Word) (s : State) : Host.Outcome State Fault Refusal := ignoreWrite v s

/-- `WR DFL_IN_LEN, v`: ignored (42_register_access.md R171). -/
def execWrDflInLen (v : Word) (s : State) : Host.Outcome State Fault Refusal := ignoreWrite v s

/-- `WR DFL_OUT_LEN, v`: ignored (42_register_access.md R171). -/
def execWrDflOutLen (v : Word) (s : State) : Host.Outcome State Fault Refusal := ignoreWrite v s

/-- `WR DFL_OUT_PTR, v`: ignored (42_register_access.md R171). -/
def execWrDflOutPtr (v : Word) (s : State) : Host.Outcome State Fault Refusal := ignoreWrite v s

/-- `WR DFL_OUT_DATA, v`: ignored (42_register_access.md R171). -/
def execWrDflOutData (v : Word) (s : State) : Host.Outcome State Fault Refusal := ignoreWrite v s

/-- `WR DFL_ADLER, v`: ignored (42_register_access.md R171). -/
def execWrDflAdler (v : Word) (s : State) : Host.Outcome State Fault Refusal := ignoreWrite v s

/-- `WR ERR_CAUSE, v`: ignored (42_register_access.md R171). -/
def execWrErrCause (v : Word) (s : State) : Host.Outcome State Fault Refusal := ignoreWrite v s

/-- `WR ERR_CMD, v`: ignored (42_register_access.md R171). -/
def execWrErrCmd (v : Word) (s : State) : Host.Outcome State Fault Refusal := ignoreWrite v s

/-- `WR` of offset 0x3C: ignored (42_register_access.md R171). -/
def execWrReserved3C (v : Word) (s : State) : Host.Outcome State Fault Refusal := ignoreWrite v s

/-- `WR` of an offset 0x40 to 0x7C: ignored (42_register_access.md R171). -/
def execWrReserved40 (_i : BitVec 4) (v : Word) (s : State) : Host.Outcome State Fault Refusal := ignoreWrite v s

/-- `WR` of an offset 0x80 to 0xFC: ignored (42_register_access.md R171). -/
def execWrReserved80 (_i : BitVec 5) (v : Word) (s : State) : Host.Outcome State Fault Refusal := ignoreWrite v s

end Sys2Proof.Machine
end

