-- ==== Sys2Proof/Machine/Dispatch.lean ====
section
/-! DEFINITION. The meaning of every instruction, one arm per constructor of `Instr`. -/

namespace Sys2Proof.Machine

def exec (i : Instr) (s : State) : Host.Outcome State Fault Refusal :=
  match i with
  | .nop rsv => Sys2Proof.Machine.execNop rsv s
  | .crcInit rsv => Sys2Proof.Machine.execCrcInit rsv s
  | .crcByte rsv b => Sys2Proof.Machine.execCrcByte rsv b s
  | .crcWord rsv k => Sys2Proof.Machine.execCrcWord rsv k s
  | .dflStart rsv lvl => Sys2Proof.Machine.execDflStart rsv lvl s
  | .dflByte rsv b => Sys2Proof.Machine.execDflByte rsv b s
  | .dflWord rsv k => Sys2Proof.Machine.execDflWord rsv k s
  | .dflFinish rsv => Sys2Proof.Machine.execDflFinish rsv s
  | .dflAbort rsv => Sys2Proof.Machine.execDflAbort rsv s
  | .illegal04 rest => Sys2Proof.Machine.execIllegal04 rest s
  | .illegal08 rest => Sys2Proof.Machine.execIllegal08 rest s
  | .illegal15 rest => Sys2Proof.Machine.execIllegal15 rest s
  | .illegal16 rest => Sys2Proof.Machine.execIllegal16 rest s
  | .illegal18 rest => Sys2Proof.Machine.execIllegal18 rest s
  | .illegal20 rest => Sys2Proof.Machine.execIllegal20 rest s
  | .illegal40 rest => Sys2Proof.Machine.execIllegal40 rest s
  | .illegal80 rest => Sys2Proof.Machine.execIllegal80 rest s
  | .rdId => Sys2Proof.Machine.execRdId s
  | .rdStatus => Sys2Proof.Machine.execRdStatus s
  | .rdCmd => Sys2Proof.Machine.execRdCmd s
  | .rdOpnd => Sys2Proof.Machine.execRdOpnd s
  | .rdCrcState => Sys2Proof.Machine.execRdCrcState s
  | .rdCrcOut => Sys2Proof.Machine.execRdCrcOut s
  | .rdCrcCount => Sys2Proof.Machine.execRdCrcCount s
  | .rdDflLevel => Sys2Proof.Machine.execRdDflLevel s
  | .rdDflInLen => Sys2Proof.Machine.execRdDflInLen s
  | .rdDflOutLen => Sys2Proof.Machine.execRdDflOutLen s
  | .rdDflOutPtr => Sys2Proof.Machine.execRdDflOutPtr s
  | .rdDflOutData => Sys2Proof.Machine.execRdDflOutData s
  | .rdDflAdler => Sys2Proof.Machine.execRdDflAdler s
  | .rdErrCause => Sys2Proof.Machine.execRdErrCause s
  | .rdErrCmd => Sys2Proof.Machine.execRdErrCmd s
  | .rdReserved3C => Sys2Proof.Machine.execRdReserved3C s
  | .rdReserved40 j => Sys2Proof.Machine.execRdReserved40 j s
  | .rdReserved80 j => Sys2Proof.Machine.execRdReserved80 j s
  | .wrId v => Sys2Proof.Machine.execWrId v s
  | .wrStatus v => Sys2Proof.Machine.execWrStatus v s
  | .wrCmd w => Sys2Proof.Machine.execWrCmd w s
  | .wrOpnd v => Sys2Proof.Machine.execWrOpnd v s
  | .wrCrcState v => Sys2Proof.Machine.execWrCrcState v s
  | .wrCrcOut v => Sys2Proof.Machine.execWrCrcOut v s
  | .wrCrcCount v => Sys2Proof.Machine.execWrCrcCount v s
  | .wrDflLevel v => Sys2Proof.Machine.execWrDflLevel v s
  | .wrDflInLen v => Sys2Proof.Machine.execWrDflInLen v s
  | .wrDflOutLen v => Sys2Proof.Machine.execWrDflOutLen v s
  | .wrDflOutPtr v => Sys2Proof.Machine.execWrDflOutPtr v s
  | .wrDflOutData v => Sys2Proof.Machine.execWrDflOutData v s
  | .wrDflAdler v => Sys2Proof.Machine.execWrDflAdler v s
  | .wrErrCause v => Sys2Proof.Machine.execWrErrCause v s
  | .wrErrCmd v => Sys2Proof.Machine.execWrErrCmd v s
  | .wrReserved3C v => Sys2Proof.Machine.execWrReserved3C v s
  | .wrReserved40 j v => Sys2Proof.Machine.execWrReserved40 j v s
  | .wrReserved80 j v => Sys2Proof.Machine.execWrReserved80 j v s

end Sys2Proof.Machine
end

