-- ==== Sys2Proof/Machine/Port.lean ====
section
/-! DEFINITION. The host port (20_memory.md sections 1 and 3): which event comes next, which accesses the
block can see, and the instruction an access is. -/

namespace Sys2Proof.Machine

/-- What the next event at the port asks of the block. -/
inductive Request where
  /-- No event is left: the host issues no access. -/
  | none
  /-- The platform drives the reset input. -/
  | drive (asserted : Bool)
  /-- An access the port accepts, as the instruction it is. -/
  | run (i : Instr)
  /-- An access that has no step. -/
  | refuse (r : Refusal)
deriving DecidableEq, Repr

/-- The reason an access of `bytes` bytes at `addr` has no step, if any: reset is asserted
(70_reset_and_hazards.md R230), it is no word access, it is not aligned, or it is outside the window
(20_memory.md R51, R56). -/
def refusalOf (s : State) (addr : Word) (bytes : Nat) : Option Refusal :=
  if s.inReset then some .accessDuringReset
  else if bytes ≠ 4 then some .notWordAccess
  else if addr.extractLsb' 0 2 ≠ 0#2 then some .misalignedAccess
  else if addr.extractLsb' 8 24 ≠ s.cfg.window then some .outOfWindow
  else none

/-- `IDX = off[7:2]`; the address bits above bit 7 are not seen by the block (20_memory.md R51,
30_encoding.md R79). -/
def wordIndex (addr : Word) : BitVec 6 := addr.extractLsb' 2 6

/-- The request of one event. -/
def requestOf (s : State) : Event → Request
  | .reset asserted => .drive asserted
  | .read addr bytes =>
    match refusalOf s addr bytes with
    | some r => .refuse r
    | none => .run (decode (.read (wordIndex addr)))
  | .write addr bytes v =>
    match refusalOf s addr bytes with
    | some r => .refuse r
    | none => .run (decode (.write (wordIndex addr) v))

/-- The request of the oldest pending event (20_memory.md R50). -/
def fetch (s : State) : Request :=
  match s.pending with
  | [] => .none
  | e :: _ => requestOf s e

/-- The event by which a host gives the block an encoded instruction: a command word is the data of a write
to `CMD` (10_state.md R28, 30_encoding.md R70). -/
def eventOf (c : Config) : Code → Event
  | .command w => .write (busAddr c 0x02#6) 4 w
  | .read idx => .read (busAddr c idx) 4
  | .write idx v => .write (busAddr c idx) 4 v

/-- The state in which the encoded instruction is the next event at the port, reset not asserted. -/
def offer (c : Code) (s : State) : State :=
  { s with inReset := false, pending := eventOf s.cfg c :: s.pending }

end Sys2Proof.Machine
end

