-- ==== Sys2Proof/Machine/Step.lean ====
section
/-! DEFINITION. One step of the machine: the next event at the port, with all its effects
(20_memory.md R50, R53, R60). -/

namespace Sys2Proof.Machine

def step (s : State) : Host.Outcome State Fault Refusal :=
  match fetch s with
  | .none => .next s
  | .drive asserted => .next (driveReset asserted (popEvent s))
  | .run i => exec i (popEvent s)
  | .refuse r => .refused r

/-- `s` with the instruction of `nbits` bits `w` as the next event at the port (assumption log 8). -/
def State.withFetchWord (s : State) (nbits w : Nat) : State :=
  match Code.ofBits nbits w with
  | .ok c => offer c s
  | .error _ => s

end Sys2Proof.Machine
end

