-- ==== Sys2Proof/Machine/HostNotation.lean ====
section
/-! DEFINITION. The spec's notation for what a host does (30_encoding.md R81 to R83): the assembler, the
pseudo-instructions and the host programs. It is no part of the block (92_eei_decisions.md D40), and the step
of the block does not use it. -/

namespace Sys2Proof.Machine

/-! ## The assembler (30_encoding.md R81) -/

/-- A command as written: its mnemonic and its operand. -/
inductive Asm where
  | nop
  | crcInit
  | crcByte (b : Nat)
  | crcWord (n : Nat)
  | dflStart (level : Nat)
  | dflByte (b : Nat)
  | dflWord (n : Nat)
  | dflFinish
  | dflAbort
deriving DecidableEq, Repr

/-- The command word, or none where the operand is out of range: an assembler refuses it. -/
def assemble : Asm → Option Word
  | .nop => some (wordN 0x00#8 0)
  | .crcInit => some (wordN 0x01#8 0)
  | .crcByte b => if b ≤ 255 then some (wordB 0x02#8 0 (BitVec.ofNat 8 b)) else none
  | .crcWord n => if 1 ≤ n ∧ n ≤ 4 then some (wordW 0x03#8 0 (BitVec.ofNat 2 (n - 1))) else none
  | .dflStart l => if l ≤ 9 then some (wordL 0x10#8 0 (BitVec.ofNat 4 l)) else none
  | .dflByte b => if b ≤ 255 then some (wordB 0x11#8 0 (BitVec.ofNat 8 b)) else none
  | .dflWord n => if 1 ≤ n ∧ n ≤ 4 then some (wordW 0x12#8 0 (BitVec.ofNat 2 (n - 1))) else none
  | .dflFinish => some (wordN 0x13#8 0)
  | .dflAbort => some (wordN 0x14#8 0)

/-! ## The pseudo-instructions (30_encoding.md R83) -/

/-- The word index of `STATUS`, `OPND`, `CRC_OUT` and `DFL_OUT_DATA` (10_state.md R20). -/
def idxStatus : BitVec 6 := 0x01#6
def idxOpnd : BitVec 6 := 0x03#6
def idxCrcOut : BitVec 6 := 0x05#6
def idxDflOutData : BitVec 6 := 0x0B#6

/-- Stage `v`, then a form W command with opcode `op` for its first k + 1 bytes. -/
def stageWord (op : BitVec 8) (v : Word) (k : BitVec 2) : List Code :=
  [.write idxOpnd v, .command (wordW op 0 k)]

/-- `CRC.U32 v`. -/
def pseudoCrcU32 (v : Word) : List Code := stageWord 0x03#8 v 3#2

/-- `CRC.TAG "abcd"`: the four ASCII bytes as one big-endian word. -/
def pseudoCrcTag (a b c d : Byte) : List Code := pseudoCrcU32 (a ++ b ++ c ++ d)

/-- `DFL.U32 v`. -/
def pseudoDflU32 (v : Word) : List Code := stageWord 0x12#8 v 3#2

/-- The expansion shared by `CRC.BYTES` and `DFL.BYTES`: groups of four bytes, then the rest, left-aligned. -/
def pseudoBytes (op : BitVec 8) : Bytes → List Code
  | a :: b :: c :: d :: t => stageWord op (a ++ b ++ c ++ d) 3#2 ++ pseudoBytes op t
  | [a, b, c] => stageWord op (a ++ b ++ c ++ 0#8) 2#2
  | [a, b] => stageWord op (a ++ b ++ 0#8 ++ 0#8) 1#2
  | [a] => stageWord op (a ++ 0#8 ++ 0#8 ++ 0#8) 0#2
  | [] => []

/-- `CRC.BYTES`. -/
def pseudoCrcBytes (d : Bytes) : List Code := pseudoBytes 0x03#8 d

/-- `DFL.BYTES`. -/
def pseudoDflBytes (d : Bytes) : List Code := pseudoBytes 0x12#8 d

/-- `ERR.CLEAR`. -/
def pseudoErrClear : List Code := [.write idxStatus 0x00001F00#32]

/-- `CHECKSUM s`: `CRC.INIT`, `CRC.BYTES s`, `RD CRC_OUT`. -/
def pseudoChecksum (d : Bytes) : List Code :=
  .command (wordN 0x01#8 0) :: (pseudoCrcBytes d ++ [.read idxCrcOut])

/-- The events by which a host issues a list of encoded instructions in order. -/
def eventsOf (c : Config) (cs : List Code) : List Event := cs.map (eventOf c)

/-! ## Host programs (30_encoding.md R82) -/

/-- The value of a `WR`: an immediate or a host register. -/
inductive HostValue where
  | imm (v : Word)
  | reg (h : Fin 8)
deriving DecidableEq, Repr

/-- A line of a host program; a branch names the number of its target line. -/
inductive HostLine where
  | wr (idx : BitVec 6) (v : HostValue)
  | rd (idx : BitVec 6) (h : Fin 8)
  | cmd (w : Word)
  | addi (d m : Fin 8) (imm : Int)
  | andi (d m : Fin 8) (imm : Word)
  | bnez (h : Fin 8) (target : Nat)
  | beqz (h : Fin 8) (target : Nat)
  | store8 (a n : Fin 8)
  | halt
deriving DecidableEq, Repr

/-- A host that runs a program against the block: its registers h0 to h7, its output buffer as (index, byte)
pairs in the order stored, the number of its next line. -/
structure HostMachine where
  block  : State
  h      : Vector Word 8
  out    : List (Word × Byte)
  line   : Nat
  halted : Bool
deriving DecidableEq, Repr

/-- The block and the host before a host program's first line (95_test_vectors.md section 3). -/
def HostMachine.start (s : State) : HostMachine :=
  { block := s, h := Vector.replicate 8 0x00000000#32, out := [], line := 0, halted := false }

/-- The host issues one access, which completes before anything else happens (20_memory.md R50). -/
def issue (c : Code) (s : State) : Host.Outcome State Fault Refusal :=
  step { s with pending := eventOf s.cfg c :: s.pending }

/-- The host after an access, with the block's new state and the registers `h` gives. -/
def afterAccess (c : Code) (h : State → Vector Word 8) (m : HostMachine) :
    Host.Outcome HostMachine Fault Refusal :=
  match issue c m.block with
  | .next t => .next { m with block := t, h := h t, line := m.line + 1 }
  | .fault r => .fault r
  | .refused r => .refused r

/-- The value a `WR` writes. -/
def hostValue (m : HostMachine) : HostValue → Word
  | .imm v => v
  | .reg r => m.h[r]

/-- One line of a host program. -/
def runLine (m : HostMachine) : HostLine → Host.Outcome HostMachine Fault Refusal
  | .wr idx v => afterAccess (.write idx (hostValue m v)) (fun _ => m.h) m
  | .rd idx r => afterAccess (.read idx) (fun t => m.h.set r (t.returned.headD 0x00000000#32)) m
  | .cmd w => afterAccess (.command w) (fun _ => m.h) m
  | .addi d r imm => .next { m with h := m.h.set d (m.h[r] + BitVec.ofInt 32 imm), line := m.line + 1 }
  | .andi d r imm => .next { m with h := m.h.set d (m.h[r] &&& imm), line := m.line + 1 }
  | .bnez r target => .next { m with line := if m.h[r] ≠ 0x00000000#32 then target else m.line + 1 }
  | .beqz r target => .next { m with line := if m.h[r] = 0x00000000#32 then target else m.line + 1 }
  | .store8 a n => .next { m with out := m.out ++ [(m.h[a], m.h[n].setWidth 8)], line := m.line + 1 }
  | .halt => .next { m with halted := true }

/-- One step of a host program: its current line; a halted host, or one past its last line, does nothing. -/
def hostStep (program : List HostLine) (m : HostMachine) : Host.Outcome HostMachine Fault Refusal :=
  if m.halted then .next m
  else
    match program[m.line]? with
    | some l => runLine m l
    | none => .next m

end Sys2Proof.Machine
end

