-- ==== Sys2Proof/Safety.lean ====
section
/-! DEFINITION. What the claims are stated in: the invariant of 10_state.md R44, the check order of
30_encoding.md R74, the phase table of 41_deflate_wrapper.md R145, the observation of 00_scope.md R9, and the
reader of stored blocks. Nothing here is used by the machine. -/

namespace Sys2Proof.Safety

open Sys2Proof.Machine

/-- The invariant of 10_state.md R44, with the bounds on the parameters (00_scope.md R7). What R44 says of the
level, of `DFL_IN_LEN` and of `DFL_OUT_LEN` holds by the types of the state. -/
structure Inv (s : State) : Prop where
  params  : s.cfg.Valid
  idle    : s.phase = .idle →
    s.inBuf = [] ∧ s.outBuf = [] ∧ s.outPtr = 0x00000000#32 ∧ s.adler = 0x00000001#32
  collect : s.phase = .collect →
    s.inBuf.length ≤ s.cfg.inCap ∧ s.outBuf = [] ∧ s.outPtr = 0x00000000#32 ∧ s.adler = a32 s.inBuf
  done    : s.phase = .done →
    s.inBuf.length ≤ s.cfg.inCap ∧ s.adler = a32 s.inBuf ∧ s.outBuf = envelope s.level s.inBuf ∧
      s.outBuf.length ≤ s.cfg.outCap ∧ s.outPtr.toNat ≤ s.outBuf.length
  cause   : s.errCause = none ↔ s.err = 0#5
  word    : s.errCause = none ↔ s.errCmd = 0x00000000#32

/-! ## The check order of 30_encoding.md R74, read from the word's bits -/

/-- `OP(w)`. -/
def opcode (w : Word) : BitVec 8 := w.extractLsb' 24 8

/-- The word has a nonzero bit outside its form's fields, or is a `DFL.START` with a level above 9
(30_encoding.md R71, R76). -/
def malformed (w : Word) : Bool :=
  if opcode w ∈ [0x00#8, 0x01#8, 0x13#8, 0x14#8] then w.extractLsb' 0 24 != 0
  else if opcode w ∈ [0x02#8, 0x11#8] then w.extractLsb' 8 16 != 0
  else if opcode w ∈ [0x03#8, 0x12#8] then w.extractLsb' 2 22 != 0
  else w.extractLsb' 4 20 != 0 || decide ((w.extractLsb' 0 4).toNat > 9)

/-- The number of bytes a `DFL.BYTE` or `DFL.WORD` word appends (30_encoding.md R74). -/
def appendCount (w : Word) : Nat :=
  if opcode w = 0x11#8 then 1 else (w.extractLsb' 0 2).toNat + 1

/-- The error the first failing check of 30_encoding.md R74 decides, if one fails. -/
def firstFailingCheck (w : Word) (s : State) : Option Cause :=
  if opcode w ∉ [0x00#8, 0x01#8, 0x02#8, 0x03#8, 0x10#8, 0x11#8, 0x12#8, 0x13#8, 0x14#8] then
    some .illegal
  else if malformed w then some .operand
  else if opcode w ∈ [0x11#8, 0x12#8, 0x13#8] ∧ s.phase ≠ .collect then some .seq
  else if opcode w = 0x10#8 ∧ s.phase = .collect then some .seq
  else if opcode w ∈ [0x11#8, 0x12#8] ∧ s.inBuf.length + appendCount w > s.cfg.inCap then some .inOvf
  else if opcode w = 0x13#8 ∧ (envelope s.level s.inBuf).length > s.cfg.outCap then some .outOvf
  else none

/-! ## The record of an error and an aborted session, as the spec writes them -/

/-- `raise Error(c)` during command word `w`: `STATUS[7 + code]` set, `ERR_CAUSE` and `ERR_CMD` written,
nothing else (60_exceptions.md R203). -/
def raised (c : Cause) (w : Word) (s : State) : State :=
  { s with err := s.err ||| (1#5 <<< (c.code.toNat - 1)), errCause := some c, errCmd := w }

/-- `ABORT_SESSION` (41_deflate_wrapper.md R135). -/
def aborted (s : State) : State :=
  { s with phase := .idle, inBuf := [], outBuf := [], outPtr := 0x00000000#32, adler := 0x00000001#32 }

/-- The bytes `v[31 - 8j : 24 - 8j]` for j from 0 to n - 1 (40_crc.md R107, 41_deflate_wrapper.md R142). -/
def leadingBytes (v : Word) (n : Nat) : Bytes :=
  (List.range n).map fun j => v.extractLsb' (24 - 8 * j) 8

/-- The read `i` returns `v` to the host and changes nothing else. -/
def Returns (i : Instr) (s : State) (v : Word) : Prop :=
  exec i s = .next { s with returned := v :: s.returned }

/-! ## Whole-machine rules -/

/-- What an instruction amounts to: the write of `w` to `CMD` is the command `w` (30_encoding.md R70). -/
def resolve : Instr → Instr
  | .wrCmd w => decodeCommand w
  | i => i

/-- The rows of 41_deflate_wrapper.md R145, reset apart: the command, the phase before, what else the row asks of
the state before, and the phase after. -/
def PhaseRow (i : Instr) (s : State) (after : Phase) : Prop :=
  (∃ lvl, i = .dflStart 0#20 lvl ∧ lvl.toNat ≤ 9 ∧ s.phase ≠ .collect ∧ after = .collect) ∨
  (∃ b, i = .dflByte 0#16 b ∧ s.phase = .collect ∧ s.inBuf.length + 1 ≤ s.cfg.inCap ∧ after = .collect) ∨
  (∃ k, i = .dflWord 0#22 k ∧ s.phase = .collect ∧ s.inBuf.length + (k.toNat + 1) ≤ s.cfg.inCap ∧
    after = .collect) ∨
  (∃ b, i = .dflByte 0#16 b ∧ s.phase = .collect ∧ s.inBuf.length + 1 > s.cfg.inCap ∧ after = .idle) ∨
  (∃ k, i = .dflWord 0#22 k ∧ s.phase = .collect ∧ s.inBuf.length + (k.toNat + 1) > s.cfg.inCap ∧
    after = .idle) ∨
  (i = .dflFinish 0#24 ∧ s.phase = .collect ∧ (envelope s.level s.inBuf).length ≤ s.cfg.outCap ∧
    after = .done) ∨
  (i = .dflFinish 0#24 ∧ s.phase = .collect ∧ (envelope s.level s.inBuf).length > s.cfg.outCap ∧
    after = .idle) ∨
  (i = .dflAbort 0#24 ∧ after = .idle)

/-- The bytes an instruction feeds to the CRC unit (40_crc.md R106, R107). -/
def fedBytes (i : Instr) (s : State) : Bytes :=
  match resolve i with
  | .crcByte rsv b => if rsv = 0#16 then [b] else []
  | .crcWord rsv k => if rsv = 0#22 then operandBytes s.opnd (wordCount k) else []
  | _ => []

/-- The meanings of a list of instructions, one after the other. -/
def execAll : List Instr → State → Host.Outcome State Fault Refusal
  | [], s => .next s
  | i :: is, s =>
    match exec i s with
    | .next t => execAll is t
    | .fault r => .fault r
    | .refused r => .refused r

/-- The sequence of values the host's reads have returned, in port order (00_scope.md R9). -/
def observation (s : State) : List Word := s.returned.reverse

/-! ## Deflate bodies -/

/-- The reading of stored blocks: each is a header byte with BTYPE = 00, LEN and NLEN little-endian, and LEN
bytes; the block with BFINAL = 1 ends the stream (41_deflate_wrapper.md R132, 93 G6). The first argument
bounds the number of blocks. -/
def readStored : Nat → Bytes → Option Bytes
  | 0, _ => none
  | fuel + 1, hdr :: l0 :: l1 :: n0 :: n1 :: rest =>
    let len := l0.toNat + 256 * l1.toNat
    if n0 = ~~~ l0 ∧ n1 = ~~~ l1 ∧ len ≤ rest.length then
      if hdr = 0x01#8 then (if len = rest.length then some rest else none)
      else if hdr = 0x00#8 then (readStored fuel (rest.drop len)).map (rest.take len ++ ·)
      else none
    else none
  | _ + 1, _ => none

/-- P1 of 41_deflate_wrapper.md R133 at one level and one byte string, for a deflate decoder `inflate`: decoding
`DEFLATE_FN(level, d)` gives exactly d. A claim that needs it takes it as a premise. -/
def DeflateDecodable (inflate : Bytes → Option Bytes) (l : Level) (d : Bytes) : Prop :=
  inflate (Config.deflateFn l d) = some d

end Sys2Proof.Safety
end

