-- ==== Sys2Proof/Certificates/Slice0/Obligations.lean ====
section
/-! DEFINITION. The statements about the model. Each cites the rule of spec/ it formalises. -/

open Sys2Proof Sys2Proof.Machine Sys2Proof.Safety

/-- 30_encoding.md R71, R73, R75, R79: every instruction, with every field at every value, is read back from
its encoding. -/
def Obligations.DecodeOfEncodeIsTheInstruction : Prop :=
  ∀ i : Instr, decode (encode i) = i

/-- 30_encoding.md R73, R75, R79: each of the 2^32 command words and of the 128 access keys is the encoding of
what it decodes to. -/
def Obligations.EncodeOfDecodeIsTheCode : Prop :=
  ∀ c : Code, encode (decode c) = c

/-- Words of 30_encoding.md R73 and R81 and of 95_test_vectors.md section 2, and keys of R79. That a key
stands in one byte with bit 7 clear and that a write key alone carries the data word 0 is the model's choice,
no rule of the spec (assumption log 8). -/
def Obligations.WordsOfTheSpecDecodeToTheirInstructions : Prop :=
  decodeCommand 0x00000000#32 = .nop 0#24 ∧ decodeCommand 0x01000000#32 = .crcInit 0#24 ∧
  decodeCommand 0x02000049#32 = .crcByte 0#16 0x49#8 ∧ decodeCommand 0x03000003#32 = .crcWord 0#22 3#2 ∧
  decodeCommand 0x10000006#32 = .dflStart 0#20 6#4 ∧ decodeCommand 0x11000061#32 = .dflByte 0#16 0x61#8 ∧
  decodeCommand 0x12000001#32 = .dflWord 0#22 1#2 ∧ decodeCommand 0x13000000#32 = .dflFinish 0#24 ∧
  decodeCommand 0x14000000#32 = .dflAbort 0#24 ∧ decodeCommand 0x04000000#32 = .illegal04 0 ∧
  decodeCommand 0xFF000000#32 = .illegal80 0x7F000000#31 ∧
  decodeTableWord 8 0x0B = some .rdDflOutData ∧ decodeTableWord 8 0x42 = some (.wrCmd 0) ∧
  decodeTableWord 8 0x20 = some (.rdReserved80 0)

/-- 30_encoding.md R75 ("Every word whose OP is 0x04 to 0x0F or 0x15 to 0xFF is illegal") and the opcode map
R73. -/
def Obligations.UnassignedOpcodesAreTheIllegalWords : Prop :=
  ∀ w : Word, (decodeCommand w).opcodeAssigned = false ↔
    (0x04 ≤ (opcode w).toNat ∧ (opcode w).toNat ≤ 0x0F) ∨ 0x15 ≤ (opcode w).toNat

/-- The column 'legal words' of 30_encoding.md R73. -/
def Obligations.WellFormedCommandsAreTheLegalWords : Prop :=
  ∀ w : Word, (decodeCommand w).wellFormed = true ↔
    w.toNat = 0x00000000 ∨ w.toNat = 0x01000000 ∨
    (0x02000000 ≤ w.toNat ∧ w.toNat ≤ 0x020000FF) ∨ (0x03000000 ≤ w.toNat ∧ w.toNat ≤ 0x03000003) ∨
    (0x10000000 ≤ w.toNat ∧ w.toNat ≤ 0x10000009) ∨ (0x11000000 ≤ w.toNat ∧ w.toNat ≤ 0x110000FF) ∨
    (0x12000000 ≤ w.toNat ∧ w.toNat ≤ 0x12000003) ∨ w.toNat = 0x13000000 ∨ w.toNat = 0x14000000

/-- 30_encoding.md R81: the operand ranges, and "An assembler refuses operands outside those ranges rather
than encode them". -/
def Obligations.AssemblerEmitsTheCommandOrRefuses : Prop :=
  (∀ b : Byte, (assemble (.crcByte b.toNat)).map decodeCommand = some (.crcByte 0#16 b) ∧
    (assemble (.dflByte b.toNat)).map decodeCommand = some (.dflByte 0#16 b)) ∧
  (∀ k : BitVec 2, (assemble (.crcWord (k.toNat + 1))).map decodeCommand = some (.crcWord 0#22 k) ∧
    (assemble (.dflWord (k.toNat + 1))).map decodeCommand = some (.dflWord 0#22 k)) ∧
  (∀ l : BitVec 4, l.toNat ≤ 9 →
    (assemble (.dflStart l.toNat)).map decodeCommand = some (.dflStart 0#20 l)) ∧
  (assemble .nop).map decodeCommand = some (.nop 0#24) ∧
  (assemble .crcInit).map decodeCommand = some (.crcInit 0#24) ∧
  (assemble .dflFinish).map decodeCommand = some (.dflFinish 0#24) ∧
  (assemble .dflAbort).map decodeCommand = some (.dflAbort 0#24) ∧
  (∀ n : Nat, 255 < n → assemble (.crcByte n) = none ∧ assemble (.dflByte n) = none) ∧
  (∀ n : Nat, n = 0 ∨ 4 < n → assemble (.crcWord n) = none ∧ assemble (.dflWord n) = none) ∧
  (∀ n : Nat, 9 < n → assemble (.dflStart n) = none)

/-- 10_state.md R28, with the command decoded as 30_encoding.md R70 says. -/
def Obligations.CmdWriteExecutesTheCommand : Prop :=
  (∀ (w : Word) (s : State), ∃ t, exec (.wrCmd w) s = .next t ∧ exec (decodeCommand w) s = .next t) ∧
  (∀ s : State, Returns .rdCmd s 0x00000000#32)

/-- 20_memory.md R50, R53, R60 and 30_encoding.md R79: one access, decoded from its key, is one step. -/
def Obligations.StepPerformsTheOldestAccess : Prop :=
  (∀ (s : State) (idx : BitVec 6) (rest : List Event), s.inReset = false →
    s.pending = .read (busAddr s.cfg idx) 4 :: rest →
    step s = exec (decode (.read idx)) { s with pending := rest }) ∧
  (∀ (s : State) (idx : BitVec 6) (v : Word) (rest : List Event), s.inReset = false →
    s.pending = .write (busAddr s.cfg idx) 4 v :: rest →
    step s = exec (decode (.write idx v)) { s with pending := rest })

/-- 30_encoding.md R70, R79 and 42_register_access.md R176: a command reaches the block as the data of a CMD
write, an access as itself. -/
def Obligations.OfferedInstructionIsTheOneThatRuns : Prop :=
  ∀ (i : Instr) (s : State), step (offer (encode i) s) = exec i { s with inReset := false }

/-- 20_memory.md R51: "a model refuses it (no step)"; the window is R56. Which name a refusal bears when the
access fails several conditions, in the order of the clauses here, is the model's choice, no rule of the spec
(assumption log 9). -/
def Obligations.AccessesThePortCannotExpressHaveNoStep : Prop :=
  ∀ (s : State) (e : Event) (rest : List Event) (a : Word) (n : Nat) (v : Word),
    s.inReset = false → s.pending = e :: rest → (e = .read a n ∨ e = .write a n v) →
    (n ≠ 4 → step s = .refused .notWordAccess) ∧
    (n = 4 → a.extractLsb' 0 2 ≠ 0#2 → step s = .refused .misalignedAccess) ∧
    (n = 4 → a.extractLsb' 0 2 = 0#2 → a.extractLsb' 8 24 ≠ s.cfg.base.extractLsb' 8 24 →
      step s = .refused .outOfWindow)

/-- 70_reset_and_hazards.md R230 ("While reset is asserted the port performs no access") and R241 (no step).
That the refusal is accessDuringReset whatever the size and the address is the model's choice (assumption log
9), and so is that asserting an asserted reset again has a step (assumption log 6). -/
def Obligations.NoAccessHasAStepDuringReset : Prop :=
  ∀ (s : State) (rest : List Event) (a : Word) (n : Nat) (v : Word), s.inReset = true →
    step { s with pending := .read a n :: rest } = .refused .accessDuringReset ∧
    step { s with pending := .write a n v :: rest } = .refused .accessDuringReset ∧
    ∃ t u, step { s with pending := .reset true :: rest } = .next t ∧
      step { s with pending := .reset false :: rest } = .next u

/-- 10_state.md R47 and the reset values of R20; the reset event is 70_reset_and_hazards.md R230. That the
parameters, the pending events and the returned values outlast a reset is the model's choice (assumption logs
1, 2 and 6). -/
def Obligations.ReleaseOfResetLeavesTheResetState : Prop :=
  ∀ s : State,
    (s = State.reset ∨
      ∃ s0 rest, s0.inReset = true ∧ s0.pending = .reset false :: rest ∧ step s0 = .next s) →
    (s.opnd = 0x00000000#32 ∧ s.crcState = 0xFFFFFFFF#32 ∧ s.crcCount = 0x00000000#32 ∧
      s.phase = .idle ∧ s.level = 0 ∧ s.inBuf = [] ∧ s.outBuf = [] ∧ s.outPtr = 0x00000000#32 ∧
      s.adler = 0x00000001#32 ∧ s.err = 0#5 ∧ s.errCause = none ∧ s.errCmd = 0x00000000#32) ∧
    Returns .rdId s 0x43524344#32 ∧ Returns .rdStatus s 0x00000000#32 ∧ Returns .rdCmd s 0x00000000#32 ∧
    Returns .rdOpnd s 0x00000000#32 ∧ Returns .rdCrcState s 0xFFFFFFFF#32 ∧
    Returns .rdCrcOut s 0x00000000#32 ∧ Returns .rdCrcCount s 0x00000000#32 ∧
    Returns .rdDflLevel s 0x00000000#32 ∧ Returns .rdDflInLen s 0x00000000#32 ∧
    Returns .rdDflOutLen s 0x00000000#32 ∧ Returns .rdDflOutPtr s 0x00000000#32 ∧
    Returns .rdDflOutData s 0x00000100#32 ∧ Returns .rdDflAdler s 0x00000001#32 ∧
    Returns .rdErrCause s 0x00000000#32 ∧ Returns .rdErrCmd s 0x00000000#32

/-- 30_encoding.md R75; recording an error is 60_exceptions.md R203. -/
def Obligations.IllegalWordRecordsIllegalAndNothingElse : Prop :=
  (∀ (w : Word) (s : State),
    (0x04 ≤ (opcode w).toNat ∧ (opcode w).toNat ≤ 0x0F) ∨ 0x15 ≤ (opcode w).toNat →
    exec (.wrCmd w) s = .next (raised .illegal w s)) ∧
  (∀ (r : BitVec 26) (s : State), exec (.illegal04 r) s = .next (raised .illegal (0b000001#6 ++ r) s)) ∧
  (∀ (r : BitVec 27) (s : State), exec (.illegal08 r) s = .next (raised .illegal (0b00001#5 ++ r) s)) ∧
  (∀ (r : BitVec 24) (s : State), exec (.illegal15 r) s = .next (raised .illegal (0x15#8 ++ r) s)) ∧
  (∀ (r : BitVec 25) (s : State), exec (.illegal16 r) s = .next (raised .illegal (0b0001011#7 ++ r) s)) ∧
  (∀ (r : BitVec 27) (s : State), exec (.illegal18 r) s = .next (raised .illegal (0b00011#5 ++ r) s)) ∧
  (∀ (r : BitVec 29) (s : State), exec (.illegal20 r) s = .next (raised .illegal (0b001#3 ++ r) s)) ∧
  (∀ (r : BitVec 30) (s : State), exec (.illegal40 r) s = .next (raised .illegal (0b01#2 ++ r) s)) ∧
  (∀ (r : BitVec 31) (s : State), exec (.illegal80 r) s = .next (raised .illegal (0b1#1 ++ r) s))

/-- 30_encoding.md R76, the forms being those of R71 and the opcodes those of R73. -/
def Obligations.MalformedWordRecordsOperandAndNothingElse : Prop :=
  ∀ (w : Word) (s : State),
    (opcode w ∈ [0x00#8, 0x01#8, 0x13#8, 0x14#8] ∧ w.extractLsb' 0 24 ≠ 0#24) ∨
    (opcode w ∈ [0x02#8, 0x11#8] ∧ w.extractLsb' 8 16 ≠ 0#16) ∨
    (opcode w ∈ [0x03#8, 0x12#8] ∧ w.extractLsb' 2 22 ≠ 0#22) ∨
    (opcode w = 0x10#8 ∧ (w.extractLsb' 4 20 ≠ 0#20 ∨ 10 ≤ (w.extractLsb' 0 4).toNat)) →
    exec (.wrCmd w) s = .next (raised .operand w s)

/-- 60_exceptions.md R204, with the order of 30_encoding.md R74 as `firstFailingCheck` writes it out. -/
def Obligations.FirstFailingCheckDecidesTheError : Prop :=
  ∀ (w : Word) (s : State),
    match firstFailingCheck w s with
    | none => ∃ t, exec (.wrCmd w) s = .next t ∧
        t.err = s.err ∧ t.errCause = s.errCause ∧ t.errCmd = s.errCmd
    | some .inOvf => exec (.wrCmd w) s = .next (raised .inOvf w (aborted s))
    | some .outOvf => exec (.wrCmd w) s = .next (raised .outOvf w (aborted s))
    | some c => exec (.wrCmd w) s = .next (raised c w s)

/-- 60_exceptions.md R202. -/
def Obligations.OnlyCmdWritesRaiseErrors : Prop :=
  ∀ (i : Instr) (s : State), i.isCommand = false → (∀ w, i ≠ .wrCmd w) →
    ∃ t, exec i s = .next t ∧ t.err &&& s.err = t.err ∧
      ((t.errCause = s.errCause ∧ t.errCmd = s.errCmd) ∨
        (∃ v, i = .wrStatus v) ∧ t.err = 0#5 ∧ t.errCause = none ∧ t.errCmd = 0x00000000#32)

/-- 10_state.md R27: "cleared only by a host write of 1 to it or by reset; no command clears one". That the
reset's clearing comes with the release of an asserted reset, and that asserting it clears nothing, is the
model's choice (assumption log 6). -/
def Obligations.ErrorBitsFallOnlyByAcknowledgementOrReset : Prop :=
  ∀ (s t : State) (j : Nat), step s = .next t → s.err.getLsbD j = true → t.err.getLsbD j = false →
    (∃ v, fetch s = .run (.wrStatus v) ∧ v.getLsbD (8 + j) = true) ∨
    (fetch s = .drive false ∧ s.inReset = true)

/-- 60_exceptions.md R205: "the error bits do not gate any command". -/
def Obligations.ErrorRecordGatesNoCommand : Prop :=
  ∀ (i : Instr) (s : State) (e : BitVec 5) (c : Option Cause) (w : Word), i.isCommand = true →
    ∃ t u, exec i s = .next t ∧ exec i { s with err := e, errCause := c, errCmd := w } = .next u ∧
      { u with err := t.err, errCause := t.errCause, errCmd := t.errCmd } = t

/-- 60_exceptions.md R202 and R205, 20_memory.md R50: no bus error, and an error does not stop the block. -/
def Obligations.EveryInstructionCompletes : Prop :=
  ∀ (i : Instr) (s : State), ∃ t, exec i s = .next t

/-- 40_crc.md R108. -/
def Obligations.NopDoesNothingOrRecordsOperand : Prop :=
  (∀ s : State, exec (.nop 0#24) s = .next s) ∧
  (∀ (rsv : BitVec 24) (s : State), rsv ≠ 0#24 →
    exec (.nop rsv) s = .next (raised .operand (0x00#8 ++ rsv) s))

/-- 40_crc.md R105. -/
def Obligations.CrcInitRestartsTheChecksum : Prop :=
  (∀ s : State,
    exec (.crcInit 0#24) s = .next { s with crcState := 0xFFFFFFFF#32, crcCount := 0x00000000#32 } ∧
    execAll [.crcInit 0#24, .crcInit 0#24] s = exec (.crcInit 0#24) s) ∧
  (∀ (rsv : BitVec 24) (s : State), rsv ≠ 0#24 →
    exec (.crcInit rsv) s = .next (raised .operand (0x01#8 ++ rsv) s))

/-- 40_crc.md R106 with FEED of R104. -/
def Obligations.CrcByteFeedsItsByte : Prop :=
  (∀ (b : Byte) (s : State), exec (.crcByte 0#16 b) s =
    .next { s with crcState := crcStep s.crcState b,
                   crcCount := BitVec.ofNat 32 ((s.crcCount.toNat + 1) % 2 ^ 32) }) ∧
  (∀ (rsv : BitVec 16) (b : Byte) (s : State), rsv ≠ 0#16 →
    exec (.crcByte rsv b) s = .next (raised .operand (0x02#8 ++ rsv ++ b) s)) ∧
  crcStep 0xFFFFFFFF#32 0x00#8 = 0x2DFD1072#32 ∧ crcStep 0xFFFFFFFF#32 0xFF#8 = 0x00FFFFFF#32

/-- 40_crc.md R107. -/
def Obligations.CrcWordFeedsTheLeadingBytes : Prop :=
  (∀ (k : BitVec 2) (s : State), exec (.crcWord 0#22 k) s =
    .next { s with crcState := crcFold s.crcState (leadingBytes s.opnd (k.toNat + 1)),
                   crcCount := BitVec.ofNat 32 ((s.crcCount.toNat + (k.toNat + 1)) % 2 ^ 32) }) ∧
  (∀ (k : BitVec 2) (s : State), exec (.crcWord 0#22 k) s =
    execAll ((leadingBytes s.opnd (k.toNat + 1)).map (.crcByte 0#16)) s) ∧
  (∀ (rsv : BitVec 22) (k : BitVec 2) (s : State), rsv ≠ 0#22 →
    exec (.crcWord rsv k) s = .next (raised .operand (0x03#8 ++ rsv ++ k) s))

/-- 40_crc.md R101. -/
def Obligations.CrcStepIsTheTableForm : Prop :=
  (∀ i : Byte, crcTable i = crcStep (i.setWidth 32) 0#8) ∧
  (∀ (c : Word) (b : Byte), crcStep c b = (c >>> 8) ^^^ crcTable ((c ^^^ b.setWidth 32).setWidth 8)) ∧
  [0, 1, 2, 3, 4, 5, 6, 7, 128, 255].map crcTable =
    [0x00000000#32, 0x77073096#32, 0xEE0E612C#32, 0x990951BA#32, 0x076DC419#32, 0x706AF48F#32,
     0xE963A535#32, 0x9E6495A3#32, 0xEDB88320#32, 0x2D02EF8D#32]

/-- 40_crc.md R111. -/
def Obligations.OneChangedByteChangesTheChecksum : Prop :=
  ∀ (p q : Bytes) (b b' : Byte), b ≠ b' → crc32 (p ++ b :: q) ≠ crc32 (p ++ b' :: q)

/-- 40_crc.md R112. -/
def Obligations.ChecksumAppendedLittleEndianLeavesTheResidue : Prop :=
  ∀ s : Bytes,
    crcFold 0xFFFFFFFF#32 (s ++ [(crc32 s).extractLsb' 0 8, (crc32 s).extractLsb' 8 8,
      (crc32 s).extractLsb' 16 8, (crc32 s).extractLsb' 24 8]) = 0xDEBB20E3#32 ∧
    0xDEBB20E3#32 ^^^ 0xFFFFFFFF#32 = 0x2144DF1C#32

/-- 40_crc.md R102, R114, R115. -/
def Obligations.ChecksumsOfKnownStrings : Prop :=
  crc32 [] = 0x00000000#32 ∧ crc32 [0x49#8, 0x45#8, 0x4E#8, 0x44#8] = 0xAE426082#32 ∧
  crc32 [0x31#8, 0x32#8, 0x33#8, 0x34#8, 0x35#8, 0x36#8, 0x37#8, 0x38#8, 0x39#8] = 0xCBF43926#32

/-- 40_crc.md R110 for the sequence of 30_encoding.md R83, run step by step at the port. That a host's
accesses are the pending events of the state is the model's choice (assumption log 1). -/
def Obligations.ChecksumSequenceReturnsTheChecksum : Prop :=
  ∀ (s : State) (d : Bytes), s.inReset = false →
    ∃ t, Host.Core.run Sys2Proof.core (pseudoChecksum d).length
        { s with pending := eventsOf s.cfg (pseudoChecksum d) } = .next t ∧
      t.returned = crc32 d :: s.returned ∧ t.crcState = crcFold 0xFFFFFFFF#32 d ∧
      t.crcCount = BitVec.ofNat 32 (d.length % 2 ^ 32) ∧ t.pending = [] ∧
      t.phase = s.phase ∧ t.level = s.level ∧ t.inBuf = s.inBuf ∧ t.outBuf = s.outBuf ∧
      t.outPtr = s.outPtr ∧ t.adler = s.adler ∧
      t.err = s.err ∧ t.errCause = s.errCause ∧ t.errCmd = s.errCmd

/-- 40_crc.md R104 ("the one place the CRC state changes by data") and R110; 41_deflate_wrapper.md R130. -/
def Obligations.CrcStateMovesOnlyByInitAndFeeding : Prop :=
  ∀ (i : Instr) (s : State), ∃ t, exec i s = .next t ∧
    (resolve i = .crcInit 0#24 → t.crcState = 0xFFFFFFFF#32 ∧ t.crcCount = 0x00000000#32) ∧
    (resolve i ≠ .crcInit 0#24 → t.crcState = crcFold s.crcState (fedBytes i s) ∧
      t.crcCount = s.crcCount + BitVec.ofNat 32 (fedBytes i s).length)

/-- 92_eei_decisions.md D38, 70_reset_and_hazards.md R242 ("the units share no state"). -/
def Obligations.CrcCommandsLeaveTheWrapperAlone : Prop :=
  ∀ (w : Word) (s : State), (opcode w).toNat ≤ 0x03 → ∃ t, exec (.wrCmd w) s = .next t ∧
    t.phase = s.phase ∧ t.level = s.level ∧ t.inBuf = s.inBuf ∧ t.outBuf = s.outBuf ∧
    t.outPtr = s.outPtr ∧ t.adler = s.adler ∧ t.opnd = s.opnd

/-- 41_deflate_wrapper.md R140. -/
def Obligations.DflStartOpensASession : Prop :=
  (∀ (l : Level) (s : State), s.phase ≠ .collect → exec (.dflStart 0#20 (BitVec.ofNat 4 l.val)) s =
    .next { s with level := l, inBuf := [], outBuf := [], outPtr := 0x00000000#32,
                   adler := 0x00000001#32, phase := .collect }) ∧
  (∀ (lvl : BitVec 4) (s : State), lvl.toNat ≤ 9 → s.phase = .collect →
    exec (.dflStart 0#20 lvl) s = .next (raised .seq (0x10#8 ++ 0#20 ++ lvl) s)) ∧
  (∀ (rsv : BitVec 20) (lvl : BitVec 4) (s : State), rsv ≠ 0#20 ∨ lvl.toNat > 9 →
    exec (.dflStart rsv lvl) s = .next (raised .operand (0x10#8 ++ rsv ++ lvl) s))

/-- 41_deflate_wrapper.md R141 with APPEND and ABORT_SESSION of R135. -/
def Obligations.DflByteAppendsItsByte : Prop :=
  (∀ (b : Byte) (s : State), s.phase = .collect → s.inBuf.length + 1 ≤ s.cfg.inCap →
    exec (.dflByte 0#16 b) s =
      .next { s with inBuf := s.inBuf ++ [b], adler := adlerStep s.adler b }) ∧
  (∀ (b : Byte) (s : State), s.phase = .collect → s.inBuf.length + 1 > s.cfg.inCap →
    exec (.dflByte 0#16 b) s = .next (raised .inOvf (0x11#8 ++ 0#16 ++ b) (aborted s))) ∧
  (∀ (b : Byte) (s : State), s.phase ≠ .collect →
    exec (.dflByte 0#16 b) s = .next (raised .seq (0x11#8 ++ 0#16 ++ b) s)) ∧
  (∀ (rsv : BitVec 16) (b : Byte) (s : State), rsv ≠ 0#16 →
    exec (.dflByte rsv b) s = .next (raised .operand (0x11#8 ++ rsv ++ b) s))

/-- 41_deflate_wrapper.md R142. -/
def Obligations.DflWordAppendsTheLeadingBytes : Prop :=
  (∀ (k : BitVec 2) (s : State), s.phase = .collect → s.inBuf.length + (k.toNat + 1) ≤ s.cfg.inCap →
    exec (.dflWord 0#22 k) s =
      .next { s with inBuf := s.inBuf ++ leadingBytes s.opnd (k.toNat + 1),
                     adler := adlerFold s.adler (leadingBytes s.opnd (k.toNat + 1)) } ∧
    exec (.dflWord 0#22 k) s = execAll ((leadingBytes s.opnd (k.toNat + 1)).map (.dflByte 0#16)) s) ∧
  (∀ (k : BitVec 2) (s : State), s.phase = .collect → s.inBuf.length + (k.toNat + 1) > s.cfg.inCap →
    exec (.dflWord 0#22 k) s = .next (raised .inOvf (0x12#8 ++ 0#22 ++ k) (aborted s))) ∧
  (∀ (k : BitVec 2) (s : State), s.phase ≠ .collect →
    exec (.dflWord 0#22 k) s = .next (raised .seq (0x12#8 ++ 0#22 ++ k) s)) ∧
  (∀ (rsv : BitVec 22) (k : BitVec 2) (s : State), rsv ≠ 0#22 →
    exec (.dflWord rsv k) s = .next (raised .operand (0x12#8 ++ rsv ++ k) s))

/-- 41_deflate_wrapper.md R143; BODY and FLG are R134's. -/
def Obligations.DflFinishProducesTheEnvelope : Prop :=
  (∀ s : State, s.phase = .collect →
    ∃ z : Bytes,
      z = [0x78#8, flg s.level] ++ (if s.level = 0 then stored s.inBuf else Config.deflateFn s.level s.inBuf) ++
        [s.adler.extractLsb' 24 8, s.adler.extractLsb' 16 8, s.adler.extractLsb' 8 8, s.adler.extractLsb' 0 8] ∧
      (z.length ≤ s.cfg.outCap →
        exec (.dflFinish 0#24) s = .next { s with outBuf := z, outPtr := 0x00000000#32, phase := .done }) ∧
      (z.length > s.cfg.outCap →
        exec (.dflFinish 0#24) s = .next (raised .outOvf 0x13000000#32 (aborted s))) ∧
      (s.adler = a32 s.inBuf → z = envelope s.level s.inBuf)) ∧
  (∀ s : State, s.phase ≠ .collect → exec (.dflFinish 0#24) s = .next (raised .seq 0x13000000#32 s)) ∧
  (∀ (rsv : BitVec 24) (s : State), rsv ≠ 0#24 →
    exec (.dflFinish rsv) s = .next (raised .operand (0x13#8 ++ rsv) s)) ∧
  envelope 0 [] = [0x78#8, 0x01#8, 0x01#8, 0x00#8, 0x00#8, 0xFF#8, 0xFF#8, 0x00#8, 0x00#8, 0x00#8, 0x01#8]

/-- 41_deflate_wrapper.md R144 with ABORT_SESSION of R135. -/
def Obligations.DflAbortEndsTheSession : Prop :=
  (∀ s : State, exec (.dflAbort 0#24) s = .next (aborted s) ∧ Returns .rdDflOutData (aborted s) 0x00000100#32 ∧
    (s.phase = .idle → s.inBuf = [] → s.outBuf = [] → s.outPtr = 0x00000000#32 → s.adler = 0x00000001#32 →
      aborted s = s)) ∧
  (∀ (rsv : BitVec 24) (s : State), rsv ≠ 0#24 →
    exec (.dflAbort rsv) s = .next (raised .operand (0x14#8 ++ rsv) s))

/-- 41_deflate_wrapper.md R145, the reset row with 70_reset_and_hazards.md R230. That the reset row is taken
on the release of an asserted reset, and that asserting reset keeps the phase, is the model's choice
(assumption log 6). -/
def Obligations.PhaseChangesOnlyByTheTable : Prop :=
  (∀ s t : State, step s = .next t → t.phase ≠ s.phase →
    (∃ i, fetch s = .run i ∧ PhaseRow (resolve i) s t.phase) ∨
    (fetch s = .drive false ∧ s.inReset = true ∧ t.phase = .idle)) ∧
  (∀ (i : Instr) (s : State) (p : Phase), PhaseRow (resolve i) s p →
    ∃ t, exec i s = .next t ∧ t.phase = p) ∧
  (∀ (s : State) (rest : List Event), s.inReset = true → s.pending = .reset false :: rest →
    ∃ t, step s = .next t ∧ t.phase = .idle) ∧
  (∀ (i : Instr) (s : State), (∀ p, ¬ PhaseRow (resolve i) s p) →
    ∃ t, exec i s = .next t ∧ t.phase = s.phase) ∧
  (∀ s : State, ∃ t, exec .rdDflOutData s = .next t ∧ t.phase = s.phase)

/-- 41_deflate_wrapper.md R130: the session renders compress(d, l), and the bytes read are ENVELOPE(l, d).
That the session completes at levels 1 to 9 rests on 70_reset_and_hazards.md R244, every DFL.FINISH having a
step (assumption log 7); that a host's accesses are the pending events of the state is the model's choice
(assumption log 1). -/
def Obligations.SessionReturnsTheEnvelope : Prop :=
  ∀ (s : State) (l : Level) (d : Bytes), s.inReset = false → s.phase ≠ .collect →
    d.length ≤ s.cfg.inCap → (envelope l d).length ≤ s.cfg.outCap → s.cfg.outCap ≤ 2 ^ 32 - 1 →
    let codes : List Code := .command (wordL 0x10#8 0 (BitVec.ofNat 4 l.val)) ::
      (pseudoDflBytes d ++ .command (wordN 0x13#8 0) ::
        List.replicate (envelope l d).length (.read idxDflOutData))
    ∃ t, Host.Core.run Sys2Proof.core codes.length { s with pending := eventsOf s.cfg codes } = .next t ∧
      t.returned = ((envelope l d).map (BitVec.setWidth 32)).reverse ++ s.returned ∧
      t.phase = .done ∧ t.level = l ∧ t.inBuf = d ∧ t.outBuf = envelope l d ∧ t.pending = [] ∧
      t.crcState = s.crcState ∧ t.crcCount = s.crcCount ∧
      t.err = s.err ∧ t.errCause = s.errCause ∧ t.errCmd = s.errCmd

/-- 41_deflate_wrapper.md R146: at level 0 by R132, at levels 1 to 9 by P1 of R133, which is a premise here
(assumption log 4). -/
def Obligations.BodyOfTheEnvelopeDecodesToTheData : Prop :=
  (∀ d : Bytes, (∃ n, readStored n (stored d) = some d) ∧
    ((envelope 0 d).drop 2).take ((envelope 0 d).length - 6) = stored d) ∧
  (∀ (inflate : Bytes → Option Bytes) (l : Level) (d : Bytes), l ≠ 0 → DeflateDecodable inflate l d →
    inflate (((envelope l d).drop 2).take ((envelope l d).length - 6)) = some d) ∧
  (∀ (l : Level) (d : Bytes), (envelope l d).drop ((envelope l d).length - 4) =
    [(a32 d).extractLsb' 24 8, (a32 d).extractLsb' 16 8, (a32 d).extractLsb' 8 8, (a32 d).extractLsb' 0 8])

/-- 41_deflate_wrapper.md R147. -/
def Obligations.LevelZeroNeverOverflowsByDefault : Prop :=
  (∀ d : Bytes, (envelope 0 d).length = d.length + 5 * max 1 ((d.length + 65534) / 65535) + 6) ∧
  (∀ s : State, Inv s → s.cfg.inCap = 262400 → s.cfg.outCap = 524800 → s.phase = .collect → s.level = 0 →
    ∃ t, exec (.dflFinish 0#24) s = .next t ∧ t.phase = .done ∧ t.outBuf = envelope 0 s.inBuf ∧
      t.outBuf.length ≤ 262431 ∧ t.err = s.err)

/-- 41_deflate_wrapper.md R134. -/
def Obligations.EnvelopeIsHeaderBodyTrailer : Prop :=
  (∀ (l : Level) (d : Bytes), ∃ body,
    (l = 0 → body = stored d) ∧ (l ≠ 0 → body = Config.deflateFn l d) ∧
    envelope l d = [0x78#8, flg l] ++ body ++
      [(a32 d).extractLsb' 24 8, (a32 d).extractLsb' 16 8, (a32 d).extractLsb' 8 8, (a32 d).extractLsb' 0 8] ∧
    (envelope l d).length = body.length + 6) ∧
  (∀ l : Level,
    flg l = (if l.val ≤ 1 then 0x01#8 else if l.val ≤ 5 then 0x5E#8 else if l.val = 6 then 0x9C#8 else 0xDA#8) ∧
    (0x78 * 256 + (flg l).toNat) % 31 = 0 ∧ (flg l).getLsbD 5 = false ∧
    ((flg l).extractLsb' 6 2).toNat = (if l.val ≤ 1 then 0 else if l.val ≤ 5 then 1 else if l.val = 6 then 2 else 3)) ∧
  (0x78#8).extractLsb' 0 4 = 8#4 ∧ (0x78#8).extractLsb' 4 4 = 7#4

/-- 41_deflate_wrapper.md R131 ("Both halves stay below 65521, so no u32 arithmetic wraps") and 10_state.md
R40. -/
def Obligations.AdlerHalvesStayBelowTheModulus : Prop :=
  ∀ d : Bytes, ((a32 d).extractLsb' 0 16).toNat = (1 + (d.map BitVec.toNat).sum) % 65521 ∧
    ((a32 d).extractLsb' 16 16).toNat < 65521

/-- 42_register_access.md R172, R178, R179, R181, R182, R190, with the template R170. -/
def Obligations.CommonAndCrcReadsReturnTheirRegisters : Prop :=
  ∀ s : State, Returns .rdId s 0x43524344#32 ∧ Returns .rdOpnd s s.opnd ∧
    Returns .rdCrcState s s.crcState ∧ Returns .rdCrcOut s (s.crcState ^^^ 0xFFFFFFFF#32) ∧
    Returns .rdCrcCount s s.crcCount ∧ Returns .rdReserved3C s 0x00000000#32 ∧
    (∀ i, Returns (.rdReserved40 i) s 0x00000000#32) ∧ (∀ i, Returns (.rdReserved80 i) s 0x00000000#32)

/-- 42_register_access.md R183 to R187, with the template R170. -/
def Obligations.WrapperReadsReturnTheirRegisters : Prop :=
  ∀ s : State, Returns .rdDflLevel s (BitVec.ofNat 32 s.level.val) ∧
    Returns .rdDflInLen s (BitVec.ofNat 32 s.inBuf.length) ∧
    Returns .rdDflOutLen s (BitVec.ofNat 32 s.outBuf.length) ∧
    Returns .rdDflOutPtr s s.outPtr ∧ Returns .rdDflAdler s s.adler

/-- 42_register_access.md R173, R188, R189; the fields are 10_state.md R24 to R26, the codes 60_exceptions.md
R200. -/
def Obligations.StatusAndErrorReadsReturnTheRecord : Prop :=
  ∀ s : State,
    (∃ v : Word, Returns .rdStatus s v ∧
      (v.extractLsb' 0 2).toNat = (match s.phase with | .idle => 0 | .collect => 1 | .done => 2) ∧
      (v.getLsbD 2 = true ↔ s.phase = .done ∧ s.outPtr.toNat < s.outBuf.length) ∧
      v.extractLsb' 3 5 = 0#5 ∧ v.extractLsb' 8 5 = s.err ∧ v.extractLsb' 13 19 = 0#19) ∧
    (∃ v : Word, Returns .rdErrCause s v ∧ v.toNat =
      (match s.errCause with
        | none => 0 | some .illegal => 1 | some .operand => 2 | some .seq => 3 | some .inOvf => 4
        | some .outOvf => 5)) ∧
    Returns .rdErrCmd s s.errCmd

/-- 42_register_access.md R180. -/
def Obligations.OutputReadReturnsTheNextByteOrEmpty : Prop :=
  (∀ (s : State) (h : s.outPtr.toNat < s.outBuf.length), s.phase = .done →
    exec .rdDflOutData s =
      .next { s with returned := (s.outBuf[s.outPtr.toNat]).setWidth 32 :: s.returned,
                     outPtr := s.outPtr + 1 }) ∧
  (∀ s : State, ¬ (s.phase = .done ∧ s.outPtr.toNat < s.outBuf.length) →
    Returns .rdDflOutData s 0x00000100#32)

/-- 42_register_access.md R174. -/
def Obligations.OpndWriteStagesItsValue : Prop :=
  (∀ (v : Word) (s : State), exec (.wrOpnd v) s = .next { s with opnd := v } ∧
    Returns .rdOpnd { s with opnd := v } v) ∧
  (∀ (i : Instr) (s : State), (∀ v, i ≠ .wrOpnd v) → ∃ t, exec i s = .next t ∧ t.opnd = s.opnd)

/-- 42_register_access.md R175. -/
def Obligations.StatusWriteClearsTheErrorBitsWrittenAsOne : Prop :=
  ∀ (v : Word) (s : State), ∃ (e : BitVec 5) (c : Option Cause) (w : Word),
    exec (.wrStatus v) s = .next { s with err := e, errCause := c, errCmd := w } ∧
    (∀ j, j < 5 → e.getLsbD j = (s.err.getLsbD j && !v.getLsbD (8 + j))) ∧
    (e = 0#5 → c = none ∧ w = 0x00000000#32) ∧ (e ≠ 0#5 → c = s.errCause ∧ w = s.errCmd)

/-- 42_register_access.md R171. -/
def Obligations.WritesToReadOnlyRegistersAreIgnored : Prop :=
  (∀ (v : Word) (s : State),
    (∀ i ∈ [Instr.wrId v, Instr.wrCrcState v, Instr.wrCrcOut v, Instr.wrCrcCount v,
        Instr.wrDflLevel v, Instr.wrDflInLen v, Instr.wrDflOutLen v, Instr.wrDflOutPtr v,
        Instr.wrDflOutData v, Instr.wrDflAdler v, Instr.wrErrCause v,
        Instr.wrErrCmd v, Instr.wrReserved3C v],
      exec i s = .next s) ∧
    (∀ i, exec (.wrReserved40 i v) s = .next s) ∧ (∀ i, exec (.wrReserved80 i v) s = .next s)) ∧
  (∀ (v : Word) (s : State) (idx : BitVec 6), idx.toNat = 0 ∨ 4 ≤ idx.toNat →
    exec (decode (.write idx v)) s = .next s)

/-- 20_memory.md R58: "Every other read has no side effect and is idempotent". -/
def Obligations.ReadsButOutputDataAreIdempotent : Prop :=
  ∀ (idx : BitVec 6) (s : State), idx ≠ 0x0B#6 → ∃ v,
    exec (decode (.read idx)) s = .next { s with returned := v :: s.returned } ∧
    exec (decode (.read idx)) { s with returned := v :: s.returned } =
      .next { s with returned := v :: v :: s.returned }

/-- 10_state.md R29: "It is written only by the host and by reset; no command changes it". That the parameters
are a constant part of the state is the model's choice (assumption log 2), and so is that OPND takes its reset
value on the release of an asserted reset and not on the assertion (assumption log 6). -/
def Obligations.OpndAndParametersChangeOnlyAsStated : Prop :=
  ∀ s t : State, step s = .next t → t.cfg = s.cfg ∧
    (t.opnd ≠ s.opnd → fetch s = .run (.wrOpnd t.opnd) ∨
      (fetch s = .drive false ∧ s.inReset = true ∧ t.opnd = 0x00000000#32))

/-- 10_state.md R44 and R47, 00_scope.md R7. -/
def Obligations.ResetStateMeetsTheInvariant : Prop :=
  Inv State.reset

/-- 10_state.md R44: "Every reachable state satisfies"; with the bounds of 00_scope.md R7 as a clause. -/
def Obligations.EveryStepKeepsTheInvariant : Prop :=
  ∀ s t : State, Inv s → step s = .next t → Inv t

/-- 70_reset_and_hazards.md R231: "After these four the state differs from the reset state at most in
DFL_LEVEL". -/
def Obligations.FourWritesRestoreTheResetState : Prop :=
  ∀ s : State,
    execAll [.wrCmd 0x01000000#32, .wrCmd 0x14000000#32, .wrStatus 0x00001F00#32, .wrOpnd 0x00000000#32] s =
      .next { State.reset with cfg := s.cfg, level := s.level, inReset := s.inReset,
                               pending := s.pending, returned := s.returned }

/-- 70_reset_and_hazards.md R233: "Steps (2) to (4) commute". -/
def Obligations.DriverStepsCommute : Prop :=
  ∀ (s : State) (l : List Instr),
    l.Perm [.wrCmd 0x14000000#32, .wrCmd 0x01000000#32, .wrStatus 0x00001F00#32] →
    ∃ t, execAll l s = .next t ∧
      execAll [.wrCmd 0x14000000#32, .wrCmd 0x01000000#32, .wrStatus 0x00001F00#32] s = .next t

/-- 30_encoding.md R82 (notation of the spec, not part of the block). The line numbers and the way a read's
value reaches the host register, through `returned`, are the model's choice (assumption log 14). -/
def Obligations.HostProgramReadsReachTheBlock : Prop :=
  ∀ m : HostMachine, m.block.inReset = false →
    (∀ (idx : BitVec 6) (v : HostValue), ∃ t, exec (decode (.write idx (hostValue m v))) m.block = .next t ∧
      runLine m (.wr idx v) = .next { m with block := t, line := m.line + 1 }) ∧
    (∀ w : Word, hostValue m (.imm w) = w) ∧ (∀ r : Fin 8, hostValue m (.reg r) = m.h[r]) ∧
    (∀ w : Word, ∃ t, exec (decodeCommand w) m.block = .next t ∧
      runLine m (.cmd w) = .next { m with block := t, line := m.line + 1 }) ∧
    (∀ (idx : BitVec 6) (r : Fin 8), ∃ t v, exec (decode (.read idx)) m.block = .next t ∧
      t.returned = v :: m.block.returned ∧
      runLine m (.rd idx r) = .next { m with block := t, h := m.h.set r v, line := m.line + 1 })
end

