-- ==== Sys2Proof/Laws/Decode.lean ====
section
/-! SUPPORT. The fields of each command format, and the arm the opcode map takes on each format's words. -/

namespace Sys2Proof

/-! ## Parts of an appended word -/

theorem append_upper {m n : Nat} (a : BitVec m) (b : BitVec n) : (a ++ b).extractLsb' n m = a := by
  apply BitVec.eq_of_getElem_eq; intro j hj
  simp [BitVec.getElem_extractLsb', BitVec.getLsbD_append, BitVec.getLsbD_eq_getElem, hj]

theorem append_lower {m n : Nat} (a : BitVec m) (b : BitVec n) : (a ++ b).extractLsb' 0 n = b := by
  apply BitVec.eq_of_getElem_eq; intro j hj
  simp [BitVec.getElem_extractLsb', BitVec.getLsbD_append, BitVec.getLsbD_eq_getElem, hj]

/-- The bits of an appended word at or above `n` are those of its upper part. -/
theorem append_above {m n : Nat} (a : BitVec m) (b : BitVec n) (k l : Nat) (h : n ≤ k) :
    (a ++ b).extractLsb' k l = a.extractLsb' (k - n) l := by
  apply BitVec.eq_of_getElem_eq; intro j hj
  have h1 : ¬ k + j < n := by omega
  have h2 : k + j - n = k - n + j := by omega
  simp [BitVec.getElem_extractLsb', BitVec.getLsbD_append, h1, h2]

/-! ## Fields of the formats (30_encoding.md R71) -/

@[simp] theorem wordN_op (op : BitVec 8) (rsv : BitVec 24) : (wordN op rsv).extractLsb' 24 8 = op :=
  append_upper _ _

@[simp] theorem wordN_rsv (op : BitVec 8) (rsv : BitVec 24) : (wordN op rsv).extractLsb' 0 24 = rsv :=
  append_lower _ _

@[simp] theorem wordB_op (op : BitVec 8) (rsv : BitVec 16) (b : BitVec 8) :
    (wordB op rsv b).extractLsb' 24 8 = op :=
  (append_above (op ++ rsv) b 24 8 (by decide)).trans (append_upper op rsv)

@[simp] theorem wordB_rsv (op : BitVec 8) (rsv : BitVec 16) (b : BitVec 8) :
    (wordB op rsv b).extractLsb' 8 16 = rsv :=
  (append_above (op ++ rsv) b 8 16 (by decide)).trans (append_lower op rsv)

@[simp] theorem wordB_b (op : BitVec 8) (rsv : BitVec 16) (b : BitVec 8) :
    (wordB op rsv b).extractLsb' 0 8 = b :=
  append_lower _ _

@[simp] theorem wordW_op (op : BitVec 8) (rsv : BitVec 22) (k : BitVec 2) :
    (wordW op rsv k).extractLsb' 24 8 = op :=
  (append_above (op ++ rsv) k 24 8 (by decide)).trans (append_upper op rsv)

@[simp] theorem wordW_rsv (op : BitVec 8) (rsv : BitVec 22) (k : BitVec 2) :
    (wordW op rsv k).extractLsb' 2 22 = rsv :=
  (append_above (op ++ rsv) k 2 22 (by decide)).trans (append_lower op rsv)

@[simp] theorem wordW_k (op : BitVec 8) (rsv : BitVec 22) (k : BitVec 2) :
    (wordW op rsv k).extractLsb' 0 2 = k :=
  append_lower _ _

@[simp] theorem wordL_op (op : BitVec 8) (rsv : BitVec 20) (lvl : BitVec 4) :
    (wordL op rsv lvl).extractLsb' 24 8 = op :=
  (append_above (op ++ rsv) lvl 24 8 (by decide)).trans (append_upper op rsv)

@[simp] theorem wordL_rsv (op : BitVec 8) (rsv : BitVec 20) (lvl : BitVec 4) :
    (wordL op rsv lvl).extractLsb' 4 20 = rsv :=
  (append_above (op ++ rsv) lvl 4 20 (by decide)).trans (append_lower op rsv)

@[simp] theorem wordL_lvl (op : BitVec 8) (rsv : BitVec 20) (lvl : BitVec 4) :
    (wordL op rsv lvl).extractLsb' 0 4 = lvl :=
  append_lower _ _

/-! ## Fields of the illegal classes (30_encoding.md R75) -/

/-- The upper bits of `OP(w)` are the upper bits of `w`. -/
theorem op_upper (w : Word) (k l : Nat) (h : k + l ≤ 8) :
    (w.extractLsb' 24 8).extractLsb' k l = w.extractLsb' (24 + k) l := by
  apply BitVec.eq_of_getElem_eq; intro j hj
  have h1 : k + j < 8 := by omega
  simp [BitVec.getElem_extractLsb', h1, Nat.add_assoc]

theorem wordIllegal04_op (rest : BitVec 26) :
    ((wordIllegal04 rest).extractLsb' 24 8).extractLsb' 2 6 = 0b000001#6 :=
  (op_upper _ _ _ (by decide)).trans (append_upper _ _)

@[simp] theorem wordIllegal04_lower (rest : BitVec 26) :
    (wordIllegal04 rest).extractLsb' 0 26 = rest := append_lower _ _

theorem wordIllegal08_op (rest : BitVec 27) :
    ((wordIllegal08 rest).extractLsb' 24 8).extractLsb' 3 5 = 0b00001#5 :=
  (op_upper _ _ _ (by decide)).trans (append_upper _ _)

@[simp] theorem wordIllegal08_lower (rest : BitVec 27) :
    (wordIllegal08 rest).extractLsb' 0 27 = rest := append_lower _ _

theorem wordIllegal15_op (rest : BitVec 24) :
    ((wordIllegal15 rest).extractLsb' 24 8).extractLsb' 0 8 = 0x15#8 :=
  (op_upper _ _ _ (by decide)).trans (append_upper _ _)

@[simp] theorem wordIllegal15_lower (rest : BitVec 24) :
    (wordIllegal15 rest).extractLsb' 0 24 = rest := append_lower _ _

theorem wordIllegal16_op (rest : BitVec 25) :
    ((wordIllegal16 rest).extractLsb' 24 8).extractLsb' 1 7 = 0b0001011#7 :=
  (op_upper _ _ _ (by decide)).trans (append_upper _ _)

@[simp] theorem wordIllegal16_lower (rest : BitVec 25) :
    (wordIllegal16 rest).extractLsb' 0 25 = rest := append_lower _ _

theorem wordIllegal18_op (rest : BitVec 27) :
    ((wordIllegal18 rest).extractLsb' 24 8).extractLsb' 3 5 = 0b00011#5 :=
  (op_upper _ _ _ (by decide)).trans (append_upper _ _)

@[simp] theorem wordIllegal18_lower (rest : BitVec 27) :
    (wordIllegal18 rest).extractLsb' 0 27 = rest := append_lower _ _

theorem wordIllegal20_op (rest : BitVec 29) :
    ((wordIllegal20 rest).extractLsb' 24 8).extractLsb' 5 3 = 0b001#3 :=
  (op_upper _ _ _ (by decide)).trans (append_upper _ _)

@[simp] theorem wordIllegal20_lower (rest : BitVec 29) :
    (wordIllegal20 rest).extractLsb' 0 29 = rest := append_lower _ _

theorem wordIllegal40_op (rest : BitVec 30) :
    ((wordIllegal40 rest).extractLsb' 24 8).extractLsb' 6 2 = 0b01#2 :=
  (op_upper _ _ _ (by decide)).trans (append_upper _ _)

@[simp] theorem wordIllegal40_lower (rest : BitVec 30) :
    (wordIllegal40 rest).extractLsb' 0 30 = rest := append_lower _ _

theorem wordIllegal80_op (rest : BitVec 31) :
    ((wordIllegal80 rest).extractLsb' 24 8).extractLsb' 7 1 = 0b1#1 :=
  (op_upper _ _ _ (by decide)).trans (append_upper _ _)

@[simp] theorem wordIllegal80_lower (rest : BitVec 31) :
    (wordIllegal80 rest).extractLsb' 0 31 = rest := append_lower _ _

/-! ## The opcode map on each format (30_encoding.md R73) -/

@[simp] theorem onCommand_nop {α : Type} (arms : CommandArms α) (rsv : BitVec 24) :
    onCommand (wordN 0x00#8 rsv) arms = arms.nop rsv := by
  simp [onCommand, opcodeOf]

@[simp] theorem onCommand_crcInit {α : Type} (arms : CommandArms α) (rsv : BitVec 24) :
    onCommand (wordN 0x01#8 rsv) arms = arms.crcInit rsv := by
  simp [onCommand, opcodeOf]

@[simp] theorem onCommand_crcByte {α : Type} (arms : CommandArms α) (rsv : BitVec 16) (b : Byte) :
    onCommand (wordB 0x02#8 rsv b) arms = arms.crcByte rsv b := by
  simp [onCommand, opcodeOf]

@[simp] theorem onCommand_crcWord {α : Type} (arms : CommandArms α) (rsv : BitVec 22) (k : BitVec 2) :
    onCommand (wordW 0x03#8 rsv k) arms = arms.crcWord rsv k := by
  simp [onCommand, opcodeOf]

@[simp] theorem onCommand_dflStart {α : Type} (arms : CommandArms α) (rsv : BitVec 20) (lvl : BitVec 4) :
    onCommand (wordL 0x10#8 rsv lvl) arms = arms.dflStart rsv lvl := by
  simp [onCommand, opcodeOf]

@[simp] theorem onCommand_dflByte {α : Type} (arms : CommandArms α) (rsv : BitVec 16) (b : Byte) :
    onCommand (wordB 0x11#8 rsv b) arms = arms.dflByte rsv b := by
  simp [onCommand, opcodeOf]

@[simp] theorem onCommand_dflWord {α : Type} (arms : CommandArms α) (rsv : BitVec 22) (k : BitVec 2) :
    onCommand (wordW 0x12#8 rsv k) arms = arms.dflWord rsv k := by
  simp [onCommand, opcodeOf]

@[simp] theorem onCommand_dflFinish {α : Type} (arms : CommandArms α) (rsv : BitVec 24) :
    onCommand (wordN 0x13#8 rsv) arms = arms.dflFinish rsv := by
  simp [onCommand, opcodeOf]

@[simp] theorem onCommand_dflAbort {α : Type} (arms : CommandArms α) (rsv : BitVec 24) :
    onCommand (wordN 0x14#8 rsv) arms = arms.dflAbort rsv := by
  simp [onCommand, opcodeOf]

/-! ## The opcode map on the illegal classes (30_encoding.md R75) -/

@[simp] theorem onCommand_illegal04 {α : Type} (arms : CommandArms α) (rest : BitVec 26) :
    onCommand (wordIllegal04 rest) arms = arms.illegal04 rest := by
  have key : ∀ op : BitVec 8, op.extractLsb' 2 6 = 0b000001#6 → opcodeOf op = .illegal04 := by decide
  simp [onCommand, key _ (wordIllegal04_op rest)]

@[simp] theorem onCommand_illegal08 {α : Type} (arms : CommandArms α) (rest : BitVec 27) :
    onCommand (wordIllegal08 rest) arms = arms.illegal08 rest := by
  have key : ∀ op : BitVec 8, op.extractLsb' 3 5 = 0b00001#5 → opcodeOf op = .illegal08 := by decide
  simp [onCommand, key _ (wordIllegal08_op rest)]

@[simp] theorem onCommand_illegal15 {α : Type} (arms : CommandArms α) (rest : BitVec 24) :
    onCommand (wordIllegal15 rest) arms = arms.illegal15 rest := by
  have key : ∀ op : BitVec 8, op.extractLsb' 0 8 = 0x15#8 → opcodeOf op = .illegal15 := by decide
  simp [onCommand, key _ (wordIllegal15_op rest)]

@[simp] theorem onCommand_illegal16 {α : Type} (arms : CommandArms α) (rest : BitVec 25) :
    onCommand (wordIllegal16 rest) arms = arms.illegal16 rest := by
  have key : ∀ op : BitVec 8, op.extractLsb' 1 7 = 0b0001011#7 → opcodeOf op = .illegal16 := by decide
  simp [onCommand, key _ (wordIllegal16_op rest)]

@[simp] theorem onCommand_illegal18 {α : Type} (arms : CommandArms α) (rest : BitVec 27) :
    onCommand (wordIllegal18 rest) arms = arms.illegal18 rest := by
  have key : ∀ op : BitVec 8, op.extractLsb' 3 5 = 0b00011#5 → opcodeOf op = .illegal18 := by decide
  simp [onCommand, key _ (wordIllegal18_op rest)]

@[simp] theorem onCommand_illegal20 {α : Type} (arms : CommandArms α) (rest : BitVec 29) :
    onCommand (wordIllegal20 rest) arms = arms.illegal20 rest := by
  have key : ∀ op : BitVec 8, op.extractLsb' 5 3 = 0b001#3 → opcodeOf op = .illegal20 := by decide
  simp [onCommand, key _ (wordIllegal20_op rest)]

@[simp] theorem onCommand_illegal40 {α : Type} (arms : CommandArms α) (rest : BitVec 30) :
    onCommand (wordIllegal40 rest) arms = arms.illegal40 rest := by
  have key : ∀ op : BitVec 8, op.extractLsb' 6 2 = 0b01#2 → opcodeOf op = .illegal40 := by decide
  simp [onCommand, key _ (wordIllegal40_op rest)]

@[simp] theorem onCommand_illegal80 {α : Type} (arms : CommandArms α) (rest : BitVec 31) :
    onCommand (wordIllegal80 rest) arms = arms.illegal80 rest := by
  have key : ∀ op : BitVec 8, op.extractLsb' 7 1 = 0b1#1 → opcodeOf op = .illegal80 := by decide
  simp [onCommand, key _ (wordIllegal80_op rest)]

end Sys2Proof
end

