-- ==== Sys2Proof/Laws/State.lean ====
section
/-! SUPPORT. What each shared operation does to each field of the state. -/

namespace Sys2Proof.Machine

@[simp] theorem recordError_cfg (c : Cause) (w : Word) (s : State) : (recordError c w s).cfg = s.cfg := rfl
@[simp] theorem recordError_opnd (c : Cause) (w : Word) (s : State) : (recordError c w s).opnd = s.opnd := rfl
@[simp] theorem recordError_crcState (c : Cause) (w : Word) (s : State) : (recordError c w s).crcState = s.crcState := rfl
@[simp] theorem recordError_crcCount (c : Cause) (w : Word) (s : State) : (recordError c w s).crcCount = s.crcCount := rfl
@[simp] theorem recordError_phase (c : Cause) (w : Word) (s : State) : (recordError c w s).phase = s.phase := rfl
@[simp] theorem recordError_level (c : Cause) (w : Word) (s : State) : (recordError c w s).level = s.level := rfl
@[simp] theorem recordError_inBuf (c : Cause) (w : Word) (s : State) : (recordError c w s).inBuf = s.inBuf := rfl
@[simp] theorem recordError_outBuf (c : Cause) (w : Word) (s : State) : (recordError c w s).outBuf = s.outBuf := rfl
@[simp] theorem recordError_outPtr (c : Cause) (w : Word) (s : State) : (recordError c w s).outPtr = s.outPtr := rfl
@[simp] theorem recordError_adler (c : Cause) (w : Word) (s : State) : (recordError c w s).adler = s.adler := rfl
@[simp] theorem recordError_err (c : Cause) (w : Word) (s : State) : (recordError c w s).err = s.err ||| c.bit := rfl
@[simp] theorem recordError_errCause (c : Cause) (w : Word) (s : State) : (recordError c w s).errCause = some c := rfl
@[simp] theorem recordError_errCmd (c : Cause) (w : Word) (s : State) : (recordError c w s).errCmd = w := rfl
@[simp] theorem recordError_inReset (c : Cause) (w : Word) (s : State) : (recordError c w s).inReset = s.inReset := rfl
@[simp] theorem recordError_pending (c : Cause) (w : Word) (s : State) : (recordError c w s).pending = s.pending := rfl
@[simp] theorem recordError_returned (c : Cause) (w : Word) (s : State) : (recordError c w s).returned = s.returned := rfl

@[simp] theorem feed_cfg (b : Byte) (s : State) : (feed b s).cfg = s.cfg := rfl
@[simp] theorem feed_opnd (b : Byte) (s : State) : (feed b s).opnd = s.opnd := rfl
@[simp] theorem feed_crcState (b : Byte) (s : State) : (feed b s).crcState = crcStep s.crcState b := rfl
@[simp] theorem feed_crcCount (b : Byte) (s : State) : (feed b s).crcCount = s.crcCount + 1 := rfl
@[simp] theorem feed_phase (b : Byte) (s : State) : (feed b s).phase = s.phase := rfl
@[simp] theorem feed_level (b : Byte) (s : State) : (feed b s).level = s.level := rfl
@[simp] theorem feed_inBuf (b : Byte) (s : State) : (feed b s).inBuf = s.inBuf := rfl
@[simp] theorem feed_outBuf (b : Byte) (s : State) : (feed b s).outBuf = s.outBuf := rfl
@[simp] theorem feed_outPtr (b : Byte) (s : State) : (feed b s).outPtr = s.outPtr := rfl
@[simp] theorem feed_adler (b : Byte) (s : State) : (feed b s).adler = s.adler := rfl
@[simp] theorem feed_err (b : Byte) (s : State) : (feed b s).err = s.err := rfl
@[simp] theorem feed_errCause (b : Byte) (s : State) : (feed b s).errCause = s.errCause := rfl
@[simp] theorem feed_errCmd (b : Byte) (s : State) : (feed b s).errCmd = s.errCmd := rfl
@[simp] theorem feed_inReset (b : Byte) (s : State) : (feed b s).inReset = s.inReset := rfl
@[simp] theorem feed_pending (b : Byte) (s : State) : (feed b s).pending = s.pending := rfl
@[simp] theorem feed_returned (b : Byte) (s : State) : (feed b s).returned = s.returned := rfl

@[simp] theorem append_cfg (b : Byte) (s : State) : (append b s).cfg = s.cfg := rfl
@[simp] theorem append_opnd (b : Byte) (s : State) : (append b s).opnd = s.opnd := rfl
@[simp] theorem append_crcState (b : Byte) (s : State) : (append b s).crcState = s.crcState := rfl
@[simp] theorem append_crcCount (b : Byte) (s : State) : (append b s).crcCount = s.crcCount := rfl
@[simp] theorem append_phase (b : Byte) (s : State) : (append b s).phase = s.phase := rfl
@[simp] theorem append_level (b : Byte) (s : State) : (append b s).level = s.level := rfl
@[simp] theorem append_inBuf (b : Byte) (s : State) : (append b s).inBuf = s.inBuf ++ [b] := rfl
@[simp] theorem append_outBuf (b : Byte) (s : State) : (append b s).outBuf = s.outBuf := rfl
@[simp] theorem append_outPtr (b : Byte) (s : State) : (append b s).outPtr = s.outPtr := rfl
@[simp] theorem append_adler (b : Byte) (s : State) : (append b s).adler = adlerStep s.adler b := rfl
@[simp] theorem append_err (b : Byte) (s : State) : (append b s).err = s.err := rfl
@[simp] theorem append_errCause (b : Byte) (s : State) : (append b s).errCause = s.errCause := rfl
@[simp] theorem append_errCmd (b : Byte) (s : State) : (append b s).errCmd = s.errCmd := rfl
@[simp] theorem append_inReset (b : Byte) (s : State) : (append b s).inReset = s.inReset := rfl
@[simp] theorem append_pending (b : Byte) (s : State) : (append b s).pending = s.pending := rfl
@[simp] theorem append_returned (b : Byte) (s : State) : (append b s).returned = s.returned := rfl

@[simp] theorem abortSession_cfg (s : State) : (abortSession s).cfg = s.cfg := rfl
@[simp] theorem abortSession_opnd (s : State) : (abortSession s).opnd = s.opnd := rfl
@[simp] theorem abortSession_crcState (s : State) : (abortSession s).crcState = s.crcState := rfl
@[simp] theorem abortSession_crcCount (s : State) : (abortSession s).crcCount = s.crcCount := rfl
@[simp] theorem abortSession_phase (s : State) : (abortSession s).phase = .idle := rfl
@[simp] theorem abortSession_level (s : State) : (abortSession s).level = s.level := rfl
@[simp] theorem abortSession_inBuf (s : State) : (abortSession s).inBuf = [] := rfl
@[simp] theorem abortSession_outBuf (s : State) : (abortSession s).outBuf = [] := rfl
@[simp] theorem abortSession_outPtr (s : State) : (abortSession s).outPtr = 0x00000000#32 := rfl
@[simp] theorem abortSession_adler (s : State) : (abortSession s).adler = adlerInit := rfl
@[simp] theorem abortSession_err (s : State) : (abortSession s).err = s.err := rfl
@[simp] theorem abortSession_errCause (s : State) : (abortSession s).errCause = s.errCause := rfl
@[simp] theorem abortSession_errCmd (s : State) : (abortSession s).errCmd = s.errCmd := rfl
@[simp] theorem abortSession_inReset (s : State) : (abortSession s).inReset = s.inReset := rfl
@[simp] theorem abortSession_pending (s : State) : (abortSession s).pending = s.pending := rfl
@[simp] theorem abortSession_returned (s : State) : (abortSession s).returned = s.returned := rfl

@[simp] theorem openSession_cfg (l : Level) (s : State) : (openSession l s).cfg = s.cfg := rfl
@[simp] theorem openSession_opnd (l : Level) (s : State) : (openSession l s).opnd = s.opnd := rfl
@[simp] theorem openSession_crcState (l : Level) (s : State) : (openSession l s).crcState = s.crcState := rfl
@[simp] theorem openSession_crcCount (l : Level) (s : State) : (openSession l s).crcCount = s.crcCount := rfl
@[simp] theorem openSession_phase (l : Level) (s : State) : (openSession l s).phase = .collect := rfl
@[simp] theorem openSession_level (l : Level) (s : State) : (openSession l s).level = l := rfl
@[simp] theorem openSession_inBuf (l : Level) (s : State) : (openSession l s).inBuf = [] := rfl
@[simp] theorem openSession_outBuf (l : Level) (s : State) : (openSession l s).outBuf = [] := rfl
@[simp] theorem openSession_outPtr (l : Level) (s : State) : (openSession l s).outPtr = 0x00000000#32 := rfl
@[simp] theorem openSession_adler (l : Level) (s : State) : (openSession l s).adler = adlerInit := rfl
@[simp] theorem openSession_err (l : Level) (s : State) : (openSession l s).err = s.err := rfl
@[simp] theorem openSession_errCause (l : Level) (s : State) : (openSession l s).errCause = s.errCause := rfl
@[simp] theorem openSession_errCmd (l : Level) (s : State) : (openSession l s).errCmd = s.errCmd := rfl
@[simp] theorem openSession_inReset (l : Level) (s : State) : (openSession l s).inReset = s.inReset := rfl
@[simp] theorem openSession_pending (l : Level) (s : State) : (openSession l s).pending = s.pending := rfl
@[simp] theorem openSession_returned (l : Level) (s : State) : (openSession l s).returned = s.returned := rfl

@[simp] theorem closeSession_cfg (z : Bytes) (s : State) : (closeSession z s).cfg = s.cfg := rfl
@[simp] theorem closeSession_opnd (z : Bytes) (s : State) : (closeSession z s).opnd = s.opnd := rfl
@[simp] theorem closeSession_crcState (z : Bytes) (s : State) : (closeSession z s).crcState = s.crcState := rfl
@[simp] theorem closeSession_crcCount (z : Bytes) (s : State) : (closeSession z s).crcCount = s.crcCount := rfl
@[simp] theorem closeSession_phase (z : Bytes) (s : State) : (closeSession z s).phase = .done := rfl
@[simp] theorem closeSession_level (z : Bytes) (s : State) : (closeSession z s).level = s.level := rfl
@[simp] theorem closeSession_inBuf (z : Bytes) (s : State) : (closeSession z s).inBuf = s.inBuf := rfl
@[simp] theorem closeSession_outBuf (z : Bytes) (s : State) : (closeSession z s).outBuf = z := rfl
@[simp] theorem closeSession_outPtr (z : Bytes) (s : State) : (closeSession z s).outPtr = 0x00000000#32 := rfl
@[simp] theorem closeSession_adler (z : Bytes) (s : State) : (closeSession z s).adler = s.adler := rfl
@[simp] theorem closeSession_err (z : Bytes) (s : State) : (closeSession z s).err = s.err := rfl
@[simp] theorem closeSession_errCause (z : Bytes) (s : State) : (closeSession z s).errCause = s.errCause := rfl
@[simp] theorem closeSession_errCmd (z : Bytes) (s : State) : (closeSession z s).errCmd = s.errCmd := rfl
@[simp] theorem closeSession_inReset (z : Bytes) (s : State) : (closeSession z s).inReset = s.inReset := rfl
@[simp] theorem closeSession_pending (z : Bytes) (s : State) : (closeSession z s).pending = s.pending := rfl
@[simp] theorem closeSession_returned (z : Bytes) (s : State) : (closeSession z s).returned = s.returned := rfl

@[simp] theorem answer_cfg (v : Word) (s : State) : (answer v s).cfg = s.cfg := rfl
@[simp] theorem answer_opnd (v : Word) (s : State) : (answer v s).opnd = s.opnd := rfl
@[simp] theorem answer_crcState (v : Word) (s : State) : (answer v s).crcState = s.crcState := rfl
@[simp] theorem answer_crcCount (v : Word) (s : State) : (answer v s).crcCount = s.crcCount := rfl
@[simp] theorem answer_phase (v : Word) (s : State) : (answer v s).phase = s.phase := rfl
@[simp] theorem answer_level (v : Word) (s : State) : (answer v s).level = s.level := rfl
@[simp] theorem answer_inBuf (v : Word) (s : State) : (answer v s).inBuf = s.inBuf := rfl
@[simp] theorem answer_outBuf (v : Word) (s : State) : (answer v s).outBuf = s.outBuf := rfl
@[simp] theorem answer_outPtr (v : Word) (s : State) : (answer v s).outPtr = s.outPtr := rfl
@[simp] theorem answer_adler (v : Word) (s : State) : (answer v s).adler = s.adler := rfl
@[simp] theorem answer_err (v : Word) (s : State) : (answer v s).err = s.err := rfl
@[simp] theorem answer_errCause (v : Word) (s : State) : (answer v s).errCause = s.errCause := rfl
@[simp] theorem answer_errCmd (v : Word) (s : State) : (answer v s).errCmd = s.errCmd := rfl
@[simp] theorem answer_inReset (v : Word) (s : State) : (answer v s).inReset = s.inReset := rfl
@[simp] theorem answer_pending (v : Word) (s : State) : (answer v s).pending = s.pending := rfl
@[simp] theorem answer_returned (v : Word) (s : State) : (answer v s).returned = v :: s.returned := rfl

@[simp] theorem popEvent_cfg (s : State) : (popEvent s).cfg = s.cfg := rfl
@[simp] theorem popEvent_opnd (s : State) : (popEvent s).opnd = s.opnd := rfl
@[simp] theorem popEvent_crcState (s : State) : (popEvent s).crcState = s.crcState := rfl
@[simp] theorem popEvent_crcCount (s : State) : (popEvent s).crcCount = s.crcCount := rfl
@[simp] theorem popEvent_phase (s : State) : (popEvent s).phase = s.phase := rfl
@[simp] theorem popEvent_level (s : State) : (popEvent s).level = s.level := rfl
@[simp] theorem popEvent_inBuf (s : State) : (popEvent s).inBuf = s.inBuf := rfl
@[simp] theorem popEvent_outBuf (s : State) : (popEvent s).outBuf = s.outBuf := rfl
@[simp] theorem popEvent_outPtr (s : State) : (popEvent s).outPtr = s.outPtr := rfl
@[simp] theorem popEvent_adler (s : State) : (popEvent s).adler = s.adler := rfl
@[simp] theorem popEvent_err (s : State) : (popEvent s).err = s.err := rfl
@[simp] theorem popEvent_errCause (s : State) : (popEvent s).errCause = s.errCause := rfl
@[simp] theorem popEvent_errCmd (s : State) : (popEvent s).errCmd = s.errCmd := rfl
@[simp] theorem popEvent_inReset (s : State) : (popEvent s).inReset = s.inReset := rfl
@[simp] theorem popEvent_pending (s : State) : (popEvent s).pending = s.pending.tail := rfl
@[simp] theorem popEvent_returned (s : State) : (popEvent s).returned = s.returned := rfl

@[simp] theorem resetBlock_cfg (s : State) : (resetBlock s).cfg = s.cfg := rfl
@[simp] theorem resetBlock_opnd (s : State) : (resetBlock s).opnd = 0x00000000#32 := rfl
@[simp] theorem resetBlock_crcState (s : State) : (resetBlock s).crcState = crcInitValue := rfl
@[simp] theorem resetBlock_crcCount (s : State) : (resetBlock s).crcCount = 0x00000000#32 := rfl
@[simp] theorem resetBlock_phase (s : State) : (resetBlock s).phase = .idle := rfl
@[simp] theorem resetBlock_level (s : State) : (resetBlock s).level = 0 := rfl
@[simp] theorem resetBlock_inBuf (s : State) : (resetBlock s).inBuf = [] := rfl
@[simp] theorem resetBlock_outBuf (s : State) : (resetBlock s).outBuf = [] := rfl
@[simp] theorem resetBlock_outPtr (s : State) : (resetBlock s).outPtr = 0x00000000#32 := rfl
@[simp] theorem resetBlock_adler (s : State) : (resetBlock s).adler = adlerInit := rfl
@[simp] theorem resetBlock_err (s : State) : (resetBlock s).err = 0#5 := rfl
@[simp] theorem resetBlock_errCause (s : State) : (resetBlock s).errCause = none := rfl
@[simp] theorem resetBlock_errCmd (s : State) : (resetBlock s).errCmd = 0x00000000#32 := rfl
@[simp] theorem resetBlock_inReset (s : State) : (resetBlock s).inReset = false := rfl
@[simp] theorem resetBlock_pending (s : State) : (resetBlock s).pending = s.pending := rfl
@[simp] theorem resetBlock_returned (s : State) : (resetBlock s).returned = s.returned := rfl

@[simp] theorem offer_cfg (k : Code) (s : State) : (offer k s).cfg = s.cfg := rfl
@[simp] theorem offer_opnd (k : Code) (s : State) : (offer k s).opnd = s.opnd := rfl
@[simp] theorem offer_crcState (k : Code) (s : State) : (offer k s).crcState = s.crcState := rfl
@[simp] theorem offer_crcCount (k : Code) (s : State) : (offer k s).crcCount = s.crcCount := rfl
@[simp] theorem offer_phase (k : Code) (s : State) : (offer k s).phase = s.phase := rfl
@[simp] theorem offer_level (k : Code) (s : State) : (offer k s).level = s.level := rfl
@[simp] theorem offer_inBuf (k : Code) (s : State) : (offer k s).inBuf = s.inBuf := rfl
@[simp] theorem offer_outBuf (k : Code) (s : State) : (offer k s).outBuf = s.outBuf := rfl
@[simp] theorem offer_outPtr (k : Code) (s : State) : (offer k s).outPtr = s.outPtr := rfl
@[simp] theorem offer_adler (k : Code) (s : State) : (offer k s).adler = s.adler := rfl
@[simp] theorem offer_err (k : Code) (s : State) : (offer k s).err = s.err := rfl
@[simp] theorem offer_errCause (k : Code) (s : State) : (offer k s).errCause = s.errCause := rfl
@[simp] theorem offer_errCmd (k : Code) (s : State) : (offer k s).errCmd = s.errCmd := rfl
@[simp] theorem offer_inReset (k : Code) (s : State) : (offer k s).inReset = false := rfl
@[simp] theorem offer_pending (k : Code) (s : State) : (offer k s).pending = eventOf s.cfg k :: s.pending := rfl
@[simp] theorem offer_returned (k : Code) (s : State) : (offer k s).returned = s.returned := rfl

@[simp] theorem acknowledge_cfg (v : Word) (s : State) : (acknowledge v s).cfg = s.cfg := by
  simp only [acknowledge]; split <;> rfl
@[simp] theorem acknowledge_opnd (v : Word) (s : State) : (acknowledge v s).opnd = s.opnd := by
  simp only [acknowledge]; split <;> rfl
@[simp] theorem acknowledge_crcState (v : Word) (s : State) : (acknowledge v s).crcState = s.crcState := by
  simp only [acknowledge]; split <;> rfl
@[simp] theorem acknowledge_crcCount (v : Word) (s : State) : (acknowledge v s).crcCount = s.crcCount := by
  simp only [acknowledge]; split <;> rfl
@[simp] theorem acknowledge_phase (v : Word) (s : State) : (acknowledge v s).phase = s.phase := by
  simp only [acknowledge]; split <;> rfl
@[simp] theorem acknowledge_level (v : Word) (s : State) : (acknowledge v s).level = s.level := by
  simp only [acknowledge]; split <;> rfl
@[simp] theorem acknowledge_inBuf (v : Word) (s : State) : (acknowledge v s).inBuf = s.inBuf := by
  simp only [acknowledge]; split <;> rfl
@[simp] theorem acknowledge_outBuf (v : Word) (s : State) : (acknowledge v s).outBuf = s.outBuf := by
  simp only [acknowledge]; split <;> rfl
@[simp] theorem acknowledge_outPtr (v : Word) (s : State) : (acknowledge v s).outPtr = s.outPtr := by
  simp only [acknowledge]; split <;> rfl
@[simp] theorem acknowledge_adler (v : Word) (s : State) : (acknowledge v s).adler = s.adler := by
  simp only [acknowledge]; split <;> rfl
@[simp] theorem acknowledge_inReset (v : Word) (s : State) : (acknowledge v s).inReset = s.inReset := by
  simp only [acknowledge]; split <;> rfl
@[simp] theorem acknowledge_pending (v : Word) (s : State) : (acknowledge v s).pending = s.pending := by
  simp only [acknowledge]; split <;> rfl
@[simp] theorem acknowledge_returned (v : Word) (s : State) : (acknowledge v s).returned = s.returned := by
  simp only [acknowledge]; split <;> rfl
@[simp] theorem acknowledge_err (v : Word) (s : State) : (acknowledge v s).err = s.err &&& ~~~ clearMask v := by
  simp only [acknowledge]; split <;> rfl

@[simp] theorem readOut_cfg (s : State) : (readOut s).cfg = s.cfg := by
  simp only [readOut]; split <;> (try split) <;> rfl
@[simp] theorem readOut_opnd (s : State) : (readOut s).opnd = s.opnd := by
  simp only [readOut]; split <;> (try split) <;> rfl
@[simp] theorem readOut_crcState (s : State) : (readOut s).crcState = s.crcState := by
  simp only [readOut]; split <;> (try split) <;> rfl
@[simp] theorem readOut_crcCount (s : State) : (readOut s).crcCount = s.crcCount := by
  simp only [readOut]; split <;> (try split) <;> rfl
@[simp] theorem readOut_phase (s : State) : (readOut s).phase = s.phase := by
  simp only [readOut]; split <;> (try split) <;> rfl
@[simp] theorem readOut_level (s : State) : (readOut s).level = s.level := by
  simp only [readOut]; split <;> (try split) <;> rfl
@[simp] theorem readOut_inBuf (s : State) : (readOut s).inBuf = s.inBuf := by
  simp only [readOut]; split <;> (try split) <;> rfl
@[simp] theorem readOut_outBuf (s : State) : (readOut s).outBuf = s.outBuf := by
  simp only [readOut]; split <;> (try split) <;> rfl
@[simp] theorem readOut_adler (s : State) : (readOut s).adler = s.adler := by
  simp only [readOut]; split <;> (try split) <;> rfl
@[simp] theorem readOut_err (s : State) : (readOut s).err = s.err := by
  simp only [readOut]; split <;> (try split) <;> rfl
@[simp] theorem readOut_errCause (s : State) : (readOut s).errCause = s.errCause := by
  simp only [readOut]; split <;> (try split) <;> rfl
@[simp] theorem readOut_errCmd (s : State) : (readOut s).errCmd = s.errCmd := by
  simp only [readOut]; split <;> (try split) <;> rfl
@[simp] theorem readOut_inReset (s : State) : (readOut s).inReset = s.inReset := by
  simp only [readOut]; split <;> (try split) <;> rfl
@[simp] theorem readOut_pending (s : State) : (readOut s).pending = s.pending := by
  simp only [readOut]; split <;> (try split) <;> rfl

end Sys2Proof.Machine
end

