-- ==== Sys2Proof/Laws/Ops.lean ====
section
/-! SUPPORT. What the shared operations, the port and a step do, said once. -/

namespace Sys2Proof.Machine

/-! ## Byte strings and folds -/

@[simp] theorem be32_length (v : Word) : (be32 v).length = 4 := rfl

theorem wordCount_le (k : BitVec 2) : 1 ≤ wordCount k ∧ wordCount k ≤ 4 := by
  have := k.isLt
  simp only [wordCount]; omega

theorem operandBytes_length (v : Word) (k : BitVec 2) :
    (operandBytes v (wordCount k)).length = wordCount k := by
  have := wordCount_le k
  simp only [operandBytes, List.length_take, be32_length]; omega

/-- The turn of the loop as 40_crc.md R100 writes it. -/
theorem crcShift_eq (c : Word) :
    crcShift c = if c.extractLsb' 0 1 = 1#1 then (c >>> 1) ^^^ crcPoly else c >>> 1 := by
  unfold crcShift
  split <;> simp

@[simp] theorem crcFold_nil (c : Word) : crcFold c [] = c := rfl
@[simp] theorem crcFold_cons (c : Word) (b : Byte) (t : Bytes) :
    crcFold c (b :: t) = crcFold (crcStep c b) t := rfl

@[simp] theorem adlerFold_nil (a : Word) : adlerFold a [] = a := rfl
@[simp] theorem adlerFold_cons (a : Word) (b : Byte) (t : Bytes) :
    adlerFold a (b :: t) = adlerFold (adlerStep a b) t := rfl

theorem adlerFold_append (a : Word) (s t : Bytes) :
    adlerFold a (s ++ t) = adlerFold (adlerFold a s) t := by
  induction s generalizing a with
  | nil => rfl
  | cons b s ih => simp [ih]

theorem a32_append (s t : Bytes) : a32 (s ++ t) = adlerFold (a32 s) t := adlerFold_append _ s t

/-! ## Feeding and appending several bytes -/

/-- `FEED` of a byte string: the fold of the checksum, the count moved by the length, nothing else. -/
theorem feedAll_eq (d : Bytes) (s : State) :
    feedAll d s =
      { s with crcState := crcFold s.crcState d, crcCount := s.crcCount + BitVec.ofNat 32 d.length } := by
  induction d generalizing s with
  | nil => simp [feedAll]
  | cons b t ih =>
    have hc : s.crcCount + 1 + BitVec.ofNat 32 t.length =
        s.crcCount + BitVec.ofNat 32 (t.length + 1) := by
      apply BitVec.eq_of_toNat_eq; simp [BitVec.toNat_add]; omega
    rw [feedAll, ih]
    simp only [feed, crcFold_cons, List.length_cons, hc]

/-- `APPEND` of a byte string: it is appended, the Adler-32 folded over it, nothing else. -/
theorem appendAll_eq (d : Bytes) (s : State) :
    appendAll d s = { s with inBuf := s.inBuf ++ d, adler := adlerFold s.adler d } := by
  induction d generalizing s with
  | nil => simp [appendAll]
  | cons b t ih => rw [appendAll, ih]; simp [append]

/-! ## Errors -/

theorem causeBit_ne_zero (c : Cause) : c.bit ≠ 0#5 := by cases c <;> decide

/-- Recording an error never leaves the error bits clear. -/
theorem recordError_err_ne_zero (c : Cause) (w : Word) (s : State) : (recordError c w s).err ≠ 0#5 := by
  intro h
  exact causeBit_ne_zero c (BitVec.or_eq_zero_iff.mp h).2

/-- An acknowledgement either leaves no error bit and clears the record, or leaves some and keeps it. -/
theorem acknowledge_cases (v : Word) (s : State) :
    (s.err &&& ~~~ clearMask v = 0#5 ∧
      acknowledge v s = { s with err := 0#5, errCause := none, errCmd := 0x00000000#32 }) ∨
    (s.err &&& ~~~ clearMask v ≠ 0#5 ∧ acknowledge v s = { s with err := s.err &&& ~~~ clearMask v }) := by
  by_cases h : s.err &&& ~~~ clearMask v = 0#5
  · exact .inl ⟨h, by simp [acknowledge, h]⟩
  · exact .inr ⟨h, by simp [acknowledge, h]⟩

/-! ## Reading the output -/

/-- The envelope's length does not depend on the trailer's value. -/
theorem envelopeWith_length (l : Level) (d : Bytes) (a : Word) :
    (envelopeWith l d a).length = (deflateBody l d).length + 6 := by
  simp [envelopeWith]

/-- A read of the output returns the byte at the pointer and advances it, or returns EMPTY. -/
theorem readOut_cases (s : State) :
    (∃ b, s.phase = .done ∧ s.outBuf[s.outPtr.toNat]? = some b ∧
      readOut s = answer (b.setWidth 32) { s with outPtr := s.outPtr + 1 }) ∨
    (¬ (s.phase = .done ∧ s.outPtr.toNat < s.outBuf.length) ∧ readOut s = answer 0x00000100#32 s) := by
  by_cases hp : s.phase = .done
  · cases hb : s.outBuf[s.outPtr.toNat]? with
    | some b => exact .inl ⟨b, hp, rfl, by simp [readOut, hp, hb]⟩
    | none =>
      refine .inr ⟨fun h => ?_, by simp [readOut, hp, hb]⟩
      have := List.getElem?_eq_none_iff.mp hb
      omega
  · exact .inr ⟨fun h => hp h.1, by simp [readOut, hp]⟩

/-! ## The level operand -/

theorem levelOf_eq_some {lvl : BitVec 4} {l : Level} (h : levelOf lvl = some l) :
    lvl.toNat ≤ 9 ∧ l.val = lvl.toNat := by
  by_cases hl : lvl.toNat < 10
  · simp only [levelOf, hl, dif_pos, Option.some.injEq] at h
    exact ⟨by omega, by rw [← h]⟩
  · simp [levelOf, hl] at h

theorem levelOf_of_le {lvl : BitVec 4} (h : lvl.toNat ≤ 9) :
    levelOf lvl = some ⟨lvl.toNat, by omega⟩ := by
  have : lvl.toNat < 10 := by omega
  simp [levelOf, this]

theorem levelOf_eq_none {lvl : BitVec 4} : levelOf lvl = none ↔ 9 < lvl.toNat := by
  by_cases h : lvl.toNat < 10 <;> simp [levelOf, h] <;> omega

/-! ## The reset input -/

theorem driveReset_cases (a : Bool) (s : State) :
    (a = true ∧ driveReset a s = { s with inReset := true }) ∨
    (a = false ∧ s.inReset = true ∧ driveReset a s = resetBlock s) ∨
    (a = false ∧ s.inReset = false ∧ driveReset a s = s) := by
  cases a <;> cases h : s.inReset <;> simp [driveReset, h]

/-! ## The port -/

/-- The bits of a register's address: two 0 bits, the word index, the window (20_memory.md R51, R56). -/
theorem busAddr_getLsbD (c : Config) (i : BitVec 6) (j : Nat) :
    (busAddr c i).getLsbD j =
      if j < 8 then (if j < 2 then false else i.getLsbD (j - 2)) else c.window.getLsbD (j - 8) := by
  show ((c.window ++ (i ++ 0#2) : BitVec (24 + (6 + 2)))).getLsbD j = _
  rw [BitVec.getLsbD_append, BitVec.getLsbD_append]
  by_cases h8 : j < 8 <;> by_cases h2 : j < 2 <;> simp [h8, h2]

@[simp] theorem busAddr_low (c : Config) (i : BitVec 6) : (busAddr c i).extractLsb' 0 2 = 0#2 := by
  apply BitVec.eq_of_getElem_eq; intro j hj
  have h8 : j < 8 := by omega
  simp [BitVec.getElem_extractLsb', busAddr_getLsbD, hj, h8]

@[simp] theorem busAddr_window (c : Config) (i : BitVec 6) : (busAddr c i).extractLsb' 8 24 = c.window := by
  apply BitVec.eq_of_getElem_eq; intro j hj
  simp [BitVec.getElem_extractLsb', busAddr_getLsbD, BitVec.getLsbD_eq_getElem, hj]

@[simp] theorem wordIndex_busAddr (c : Config) (i : BitVec 6) : wordIndex (busAddr c i) = i := by
  apply BitVec.eq_of_getElem_eq; intro j hj
  have h8 : 2 + j < 8 := by omega
  simp [wordIndex, BitVec.getElem_extractLsb', busAddr_getLsbD, BitVec.getLsbD_eq_getElem, hj, h8]
  intro _; omega

/-- A word access at a register's address has a step unless reset is asserted. -/
theorem refusalOf_busAddr (s : State) (i : BitVec 6) (h : s.inReset = false) :
    refusalOf s (busAddr s.cfg i) 4 = none := by
  simp [refusalOf, h]

/-! ## A step -/

/-- A step that answers a next state: no event, the reset input, or one instruction. -/
theorem step_next_cases {s t : State} (h : step s = .next t) :
    (fetch s = .none ∧ t = s) ∨
    (∃ a, fetch s = .drive a ∧ t = driveReset a (popEvent s)) ∨
    (∃ i, fetch s = .run i ∧ exec i (popEvent s) = .next t) := by
  unfold step at h
  split at h
  · exact .inl ⟨‹_›, by simpa using h.symm⟩
  · exact .inr (.inl ⟨_, ‹_›, by simpa using h.symm⟩)
  · exact .inr (.inr ⟨_, ‹_›, h⟩)
  · cases h

end Sys2Proof.Machine
end

