-- ==== Sys2Proof/Laws/Effect.lean ====
section
/-! SUPPORT. What an instruction can do to the state, said once: every next state of `exec` is one of these
effects. Claims about all instructions are case analyses over `Effect`. -/

namespace Sys2Proof.Machine

open Sys2Proof.Safety

/-- The three ways a session overflows (41_deflate_wrapper.md R141 to R143). -/
def Overflows (i : Instr) (s : State) : Prop :=
  (∃ b, resolve i = .dflByte 0#16 b ∧ s.inBuf.length + 1 > s.cfg.inCap) ∨
  (∃ k, resolve i = .dflWord 0#22 k ∧ s.inBuf.length + wordCount k > s.cfg.inCap) ∨
  (resolve i = .dflFinish 0#24 ∧ s.finished.length > s.cfg.outCap)

/-- The effects the instruction `i` can have on `s`, with what holds of `i` and `s` when it has them. -/
inductive Effect (i : Instr) (s : State) : State → Prop where
  | quiet : Effect i s s
  | error (c : Cause) (w : Word) (hw : w ≠ 0#32) : Effect i s (recordError c w s)
  | overflow (c : Cause) (w : Word) (hw : w ≠ 0#32) (hp : s.phase = .collect) (hi : Overflows i s) :
      Effect i s (recordError c w (abortSession s))
  | crcInit (hi : resolve i = .crcInit 0#24) :
      Effect i s { s with crcState := crcInitValue, crcCount := 0x00000000#32 }
  | fed (d : Bytes) (hi : fedBytes i s = d) : Effect i s (feedAll d s)
  | opened (l : Level) (lvl : BitVec 4) (hi : resolve i = .dflStart 0#20 lvl) (hl : levelOf lvl = some l)
      (hp : s.phase ≠ .collect) : Effect i s (openSession l s)
  | appended (d : Bytes) (hp : s.phase = .collect) (hc : s.inBuf.length + d.length ≤ s.cfg.inCap) :
      Effect i s (appendAll d s)
  | closed (hi : resolve i = .dflFinish 0#24) (hp : s.phase = .collect)
      (hc : s.finished.length ≤ s.cfg.outCap) : Effect i s (closeSession s.finished s)
  | aborted (hi : resolve i = .dflAbort 0#24) : Effect i s (abortSession s)
  | answered (v : Word) : Effect i s (answer v s)
  | outRead (hi : i = .rdDflOutData) : Effect i s (readOut s)
  | acknowledged (v : Word) (hi : i = .wrStatus v) : Effect i s (acknowledge v s)
  | staged (v : Word) (hi : i = .wrOpnd v) : Effect i s { s with opnd := v }

/-! ## The words that record an error are not 0 (10_state.md R44) -/

theorem wordN_ne_zero {op : BitVec 8} {rsv : BitVec 24} (h : rsv ≠ 0#24 ∨ op ≠ 0#8) : wordN op rsv ≠ 0#32 := by
  intro e
  rcases h with h | h
  · exact h ((wordN_rsv op rsv).symm.trans (by rw [e]; rfl))
  · exact h ((wordN_op op rsv).symm.trans (by rw [e]; rfl))

theorem wordB_ne_zero {op : BitVec 8} (rsv : BitVec 16) (b : Byte) (h : op ≠ 0#8) : wordB op rsv b ≠ 0#32 :=
  fun e => h ((wordB_op op rsv b).symm.trans (by rw [e]; rfl))

theorem wordW_ne_zero {op : BitVec 8} (rsv : BitVec 22) (k : BitVec 2) (h : op ≠ 0#8) : wordW op rsv k ≠ 0#32 :=
  fun e => h ((wordW_op op rsv k).symm.trans (by rw [e]; rfl))

theorem wordL_ne_zero {op : BitVec 8} (rsv : BitVec 20) (lvl : BitVec 4) (h : op ≠ 0#8) :
    wordL op rsv lvl ≠ 0#32 :=
  fun e => h ((wordL_op op rsv lvl).symm.trans (by rw [e]; rfl))

/-- A word whose upper bits are not all 0 is not 0. -/
theorem append_ne_zero {m n : Nat} {a : BitVec m} (b : BitVec n) (h : a ≠ 0#m) : a ++ b ≠ 0#(m + n) := by
  intro e
  refine h ((append_upper a b).symm.trans ?_)
  rw [e]
  apply BitVec.eq_of_getElem_eq; intro j hj
  simp

/-! ## The effect of each command -/

theorem execNop_effect {rsv : BitVec 24} {s t : State} (h : execNop rsv s = .next t) :
    Effect (.nop rsv) s t := by
  unfold execNop raiseError at h
  split at h <;> cases h
  · exact .error _ _ (wordN_ne_zero (.inl ‹_›))
  · exact .quiet

theorem execCrcInit_effect {rsv : BitVec 24} {s t : State} (h : execCrcInit rsv s = .next t) :
    Effect (.crcInit rsv) s t := by
  unfold execCrcInit raiseError at h
  by_cases hr : rsv = 0#24
  · subst hr; cases h; exact .crcInit rfl
  · rw [if_pos hr] at h; cases h
    exact .error _ _ (wordN_ne_zero (.inr (by decide)))

theorem execCrcByte_effect {rsv : BitVec 16} {b : Byte} {s t : State} (h : execCrcByte rsv b s = .next t) :
    Effect (.crcByte rsv b) s t := by
  unfold execCrcByte raiseError at h
  by_cases hr : rsv = 0#16
  · subst hr; cases h; exact .fed [b] rfl
  · rw [if_pos hr] at h; cases h
    exact .error _ _ (wordB_ne_zero _ _ (by decide))

theorem execCrcWord_effect {rsv : BitVec 22} {k : BitVec 2} {s t : State} (h : execCrcWord rsv k s = .next t) :
    Effect (.crcWord rsv k) s t := by
  unfold execCrcWord raiseError at h
  by_cases hr : rsv = 0#22
  · subst hr; cases h; exact .fed _ rfl
  · rw [if_pos hr] at h; cases h
    exact .error _ _ (wordW_ne_zero _ _ (by decide))

theorem execDflStart_effect {rsv : BitVec 20} {lvl : BitVec 4} {s t : State}
    (h : execDflStart rsv lvl s = .next t) : Effect (.dflStart rsv lvl) s t := by
  have hw : wordL 0x10#8 rsv lvl ≠ 0#32 := wordL_ne_zero _ _ (by decide)
  unfold execDflStart raiseError at h
  by_cases hr : rsv = 0#20
  · rw [if_neg (not_not_intro hr)] at h
    subst hr
    split at h
    · cases h; exact .error _ _ hw
    · split at h <;> cases h
      · exact .error _ _ hw
      · exact .opened _ _ rfl ‹_› ‹_›
  · rw [if_pos hr] at h; cases h; exact .error _ _ hw

theorem execDflByte_effect {rsv : BitVec 16} {b : Byte} {s t : State} (h : execDflByte rsv b s = .next t) :
    Effect (.dflByte rsv b) s t := by
  have hw : wordB 0x11#8 rsv b ≠ 0#32 := wordB_ne_zero _ _ (by decide)
  unfold execDflByte overflow raiseError at h
  by_cases hr : rsv = 0#16
  · rw [if_neg (not_not_intro hr)] at h
    subst hr
    split at h
    · cases h; exact .error _ _ hw
    · have hp : s.phase = .collect := by simpa using ‹¬ s.phase ≠ .collect›
      split at h <;> cases h
      · exact .overflow _ _ hw hp (.inl ⟨b, rfl, ‹_›⟩)
      · exact .appended [b] hp (by simp; omega)
  · rw [if_pos hr] at h; cases h; exact .error _ _ hw

theorem execDflWord_effect {rsv : BitVec 22} {k : BitVec 2} {s t : State} (h : execDflWord rsv k s = .next t) :
    Effect (.dflWord rsv k) s t := by
  have hw : wordW 0x12#8 rsv k ≠ 0#32 := wordW_ne_zero _ _ (by decide)
  unfold execDflWord overflow raiseError at h
  by_cases hr : rsv = 0#22
  · rw [if_neg (not_not_intro hr)] at h
    subst hr
    split at h
    · cases h; exact .error _ _ hw
    · have hp : s.phase = .collect := by simpa using ‹¬ s.phase ≠ .collect›
      split at h <;> cases h
      · exact .overflow _ _ hw hp (.inr (.inl ⟨k, rfl, ‹_›⟩))
      · exact .appended _ hp (by rw [operandBytes_length]; omega)
  · rw [if_pos hr] at h; cases h; exact .error _ _ hw

theorem execDflFinish_effect {rsv : BitVec 24} {s t : State} (h : execDflFinish rsv s = .next t) :
    Effect (.dflFinish rsv) s t := by
  have hw : wordN 0x13#8 rsv ≠ 0#32 := wordN_ne_zero (.inr (by decide))
  unfold execDflFinish overflow raiseError at h
  by_cases hr : rsv = 0#24
  · rw [if_neg (not_not_intro hr)] at h
    subst hr
    split at h
    · cases h; exact .error _ _ hw
    · have hp : s.phase = .collect := by simpa using ‹¬ s.phase ≠ .collect›
      split at h <;> cases h
      · exact .overflow _ _ hw hp (.inr (.inr ⟨rfl, ‹_›⟩))
      · exact .closed rfl hp (by omega)
  · rw [if_pos hr] at h; cases h; exact .error _ _ hw

theorem execDflAbort_effect {rsv : BitVec 24} {s t : State} (h : execDflAbort rsv s = .next t) :
    Effect (.dflAbort rsv) s t := by
  unfold execDflAbort raiseError at h
  by_cases hr : rsv = 0#24
  · subst hr; cases h; exact .aborted rfl
  · rw [if_pos hr] at h; cases h
    exact .error _ _ (wordN_ne_zero (.inr (by decide)))

/-! ## The write to `CMD` -/

/-- The meaning of a write to `CMD` is the meaning of its command. -/
theorem execWrCmd_eq (w : Word) (s : State) : execWrCmd w s = exec (decodeCommand w) s := by
  simp only [execWrCmd, decodeCommand, onCommand]
  cases opcodeOf (w.extractLsb' 24 8) <;> rfl

theorem decodeCommand_isCommand (w : Word) : (decodeCommand w).isCommand = true := by
  simp only [decodeCommand, onCommand]
  cases opcodeOf (w.extractLsb' 24 8) <;> rfl

/-- A command is not a write to `CMD`: it amounts to itself. -/
theorem resolve_of_isCommand {i : Instr} (h : i.isCommand = true) : resolve i = i := by
  cases i <;> first | rfl | cases h

@[simp] theorem resolve_wrCmd (w : Word) : resolve (.wrCmd w) = decodeCommand w := rfl

/-- A command's effect is that of its write to `CMD`. -/
theorem Effect.ofCommand {w : Word} {s t : State} (h : Effect (decodeCommand w) s t) :
    Effect (.wrCmd w) s t := by
  have hc := decodeCommand_isCommand w
  have hr : resolve (decodeCommand w) = resolve (.wrCmd w) := resolve_of_isCommand hc
  cases h with
  | quiet => exact .quiet
  | error c w hw => exact .error c w hw
  | overflow c w hw hp hi => exact .overflow c w hw hp (by simpa only [Overflows, hr] using hi)
  | crcInit hi => exact .crcInit (hr ▸ hi)
  | fed d hi => exact .fed d (by simpa only [fedBytes, hr] using hi)
  | opened l lvl hi hl hp => exact .opened l lvl (hr ▸ hi) hl hp
  | appended d hp hc => exact .appended d hp hc
  | closed hi hp hc => exact .closed (hr ▸ hi) hp hc
  | aborted hi => exact .aborted (hr ▸ hi)
  | answered v => exact .answered v
  | outRead hi => rw [hi] at hc; cases hc
  | acknowledged v hi => rw [hi] at hc; cases hc
  | staged v hi => rw [hi] at hc; cases hc

/-! ## The effect of every instruction -/

theorem command_effect {i : Instr} {s t : State} (hi : i.isCommand = true) (h : exec i s = .next t) :
    Effect i s t := by
  cases i with
  | nop => exact execNop_effect h
  | crcInit => exact execCrcInit_effect h
  | crcByte => exact execCrcByte_effect h
  | crcWord => exact execCrcWord_effect h
  | dflStart => exact execDflStart_effect h
  | dflByte => exact execDflByte_effect h
  | dflWord => exact execDflWord_effect h
  | dflFinish => exact execDflFinish_effect h
  | dflAbort => exact execDflAbort_effect h
  | illegal04 r => cases h; exact .error _ _ (append_ne_zero r (by decide))
  | illegal08 r => cases h; exact .error _ _ (append_ne_zero r (by decide))
  | illegal15 r => cases h; exact .error _ _ (append_ne_zero r (by decide))
  | illegal16 r => cases h; exact .error _ _ (append_ne_zero r (by decide))
  | illegal18 r => cases h; exact .error _ _ (append_ne_zero r (by decide))
  | illegal20 r => cases h; exact .error _ _ (append_ne_zero r (by decide))
  | illegal40 r => cases h; exact .error _ _ (append_ne_zero r (by decide))
  | illegal80 r => cases h; exact .error _ _ (append_ne_zero r (by decide))
  | _ => cases hi

/-- Every next state of an instruction is one of the effects. -/
theorem exec_effect {i : Instr} {s t : State} (h : exec i s = .next t) : Effect i s t := by
  by_cases hc : i.isCommand = true
  · exact command_effect hc h
  cases i with
  | wrCmd w =>
    have h' : exec (decodeCommand w) s = .next t := (execWrCmd_eq w s).symm.trans h
    exact .ofCommand (command_effect (decodeCommand_isCommand w) h')
  | wrStatus => cases h; exact .acknowledged _ rfl
  | wrOpnd => cases h; exact .staged _ rfl
  | rdDflOutData => cases h; exact .outRead rfl
  | rdId | rdStatus | rdCmd | rdOpnd | rdCrcState | rdCrcOut | rdCrcCount | rdDflLevel | rdDflInLen
  | rdDflOutLen | rdDflOutPtr | rdDflAdler | rdErrCause | rdErrCmd | rdReserved3C | rdReserved40
  | rdReserved80 => cases h; exact .answered _
  | wrId | wrCrcState | wrCrcOut | wrCrcCount | wrDflLevel | wrDflInLen | wrDflOutLen | wrDflOutPtr
  | wrDflOutData | wrDflAdler | wrErrCause | wrErrCmd | wrReserved3C | wrReserved40
  | wrReserved80 => cases h; exact .quiet
  | _ => exact absurd rfl hc

end Sys2Proof.Machine
end

