-- ==== Sys2Proof/Laws/PerInstr.lean ====
section
/-! SUPPORT. Statements made for each constructor of `Instr`. The family `RowMatch`: an instruction's
encoding matches its row of opcode_table.json. -/

namespace Sys2Proof.Laws.RowMatch

/-- A row's format and its match and mask: the opcode's for every word of the command, and the whole word's
for the words whose reserved bits are 0; for an access, those of its key. -/
inductive Row where
  | command (opMask opBits mask bits : Word)
  | access (mask bits : BitVec 7)

/-- The row of each constructor, copied from opcode_table.json. -/
def row : Instr → Row
  | .nop _ => .command 0xFF000000#32 0x00000000#32 0xFFFFFFFF#32 0x00000000#32
  | .crcInit _ => .command 0xFF000000#32 0x01000000#32 0xFFFFFFFF#32 0x01000000#32
  | .crcByte _ _ => .command 0xFF000000#32 0x02000000#32 0xFFFFFF00#32 0x02000000#32
  | .crcWord _ _ => .command 0xFF000000#32 0x03000000#32 0xFFFFFFFC#32 0x03000000#32
  | .dflStart _ _ => .command 0xFF000000#32 0x10000000#32 0xFFFFFFF0#32 0x10000000#32
  | .dflByte _ _ => .command 0xFF000000#32 0x11000000#32 0xFFFFFF00#32 0x11000000#32
  | .dflWord _ _ => .command 0xFF000000#32 0x12000000#32 0xFFFFFFFC#32 0x12000000#32
  | .dflFinish _ => .command 0xFF000000#32 0x13000000#32 0xFFFFFFFF#32 0x13000000#32
  | .dflAbort _ => .command 0xFF000000#32 0x14000000#32 0xFFFFFFFF#32 0x14000000#32
  | .illegal04 _ => .command 0xFC000000#32 0x04000000#32 0xFC000000#32 0x04000000#32
  | .illegal08 _ => .command 0xF8000000#32 0x08000000#32 0xF8000000#32 0x08000000#32
  | .illegal15 _ => .command 0xFF000000#32 0x15000000#32 0xFF000000#32 0x15000000#32
  | .illegal16 _ => .command 0xFE000000#32 0x16000000#32 0xFE000000#32 0x16000000#32
  | .illegal18 _ => .command 0xF8000000#32 0x18000000#32 0xF8000000#32 0x18000000#32
  | .illegal20 _ => .command 0xE0000000#32 0x20000000#32 0xE0000000#32 0x20000000#32
  | .illegal40 _ => .command 0xC0000000#32 0x40000000#32 0xC0000000#32 0x40000000#32
  | .illegal80 _ => .command 0x80000000#32 0x80000000#32 0x80000000#32 0x80000000#32
  | .rdId => .access 0x7F#7 0x00#7
  | .rdStatus => .access 0x7F#7 0x01#7
  | .rdCmd => .access 0x7F#7 0x02#7
  | .rdOpnd => .access 0x7F#7 0x03#7
  | .rdCrcState => .access 0x7F#7 0x04#7
  | .rdCrcOut => .access 0x7F#7 0x05#7
  | .rdCrcCount => .access 0x7F#7 0x06#7
  | .rdDflLevel => .access 0x7F#7 0x07#7
  | .rdDflInLen => .access 0x7F#7 0x08#7
  | .rdDflOutLen => .access 0x7F#7 0x09#7
  | .rdDflOutPtr => .access 0x7F#7 0x0A#7
  | .rdDflOutData => .access 0x7F#7 0x0B#7
  | .rdDflAdler => .access 0x7F#7 0x0C#7
  | .rdErrCause => .access 0x7F#7 0x0D#7
  | .rdErrCmd => .access 0x7F#7 0x0E#7
  | .rdReserved3C => .access 0x7F#7 0x0F#7
  | .rdReserved40 _ => .access 0x70#7 0x10#7
  | .rdReserved80 _ => .access 0x60#7 0x20#7
  | .wrId _ => .access 0x7F#7 0x40#7
  | .wrStatus _ => .access 0x7F#7 0x41#7
  | .wrCmd _ => .access 0x7F#7 0x42#7
  | .wrOpnd _ => .access 0x7F#7 0x43#7
  | .wrCrcState _ => .access 0x7F#7 0x44#7
  | .wrCrcOut _ => .access 0x7F#7 0x45#7
  | .wrCrcCount _ => .access 0x7F#7 0x46#7
  | .wrDflLevel _ => .access 0x7F#7 0x47#7
  | .wrDflInLen _ => .access 0x7F#7 0x48#7
  | .wrDflOutLen _ => .access 0x7F#7 0x49#7
  | .wrDflOutPtr _ => .access 0x7F#7 0x4A#7
  | .wrDflOutData _ => .access 0x7F#7 0x4B#7
  | .wrDflAdler _ => .access 0x7F#7 0x4C#7
  | .wrErrCause _ => .access 0x7F#7 0x4D#7
  | .wrErrCmd _ => .access 0x7F#7 0x4E#7
  | .wrReserved3C _ => .access 0x7F#7 0x4F#7
  | .wrReserved40 _ _ => .access 0x70#7 0x50#7
  | .wrReserved80 _ _ => .access 0x60#7 0x60#7

/-- The encoded instruction is of the row's format and matches it. -/
def Matches (i : Instr) : Row → Prop
  | .command opMask opBits mask bits =>
    ∃ w, encode i = .command w ∧ w &&& opMask = opBits ∧ (i.reservedZero = true → w &&& mask = bits)
  | .access mask bits => ∃ k, (encode i).key = some k ∧ k &&& mask = bits

def Statement (i : Instr) : Prop := Matches i (row i)

/-- Masking an appended word masks its parts. -/
theorem append_mask {m n : Nat} (a c : BitVec m) (b d : BitVec n) :
    (a ++ b) &&& (c ++ d) = (a &&& c) ++ (b &&& d) := BitVec.and_append

theorem nop (rsv : BitVec 24) : Statement (.nop rsv) := by
  refine ⟨_, rfl, (append_mask _ 0xFF#8 _ 0#24).trans (by simp), fun h => ?_⟩
  simp only [Instr.reservedZero, beq_iff_eq] at h
  subst h; decide

theorem crcInit (rsv : BitVec 24) : Statement (.crcInit rsv) := by
  refine ⟨_, rfl, (append_mask _ 0xFF#8 _ 0#24).trans (by simp), fun h => ?_⟩
  simp only [Instr.reservedZero, beq_iff_eq] at h
  subst h; decide

theorem crcByte (rsv : BitVec 16) (b : Byte) : Statement (.crcByte rsv b) := by
  refine ⟨_, rfl, (append_mask (0x02#8 ++ rsv) (0xFF#8 ++ 0#16) b 0#8).trans ?_, fun h => ?_⟩
  · rw [append_mask]; simp
  · simp only [Instr.reservedZero, beq_iff_eq] at h
    subst h; revert b; decide

theorem crcWord (rsv : BitVec 22) (k : BitVec 2) : Statement (.crcWord rsv k) := by
  refine ⟨_, rfl, (append_mask (0x03#8 ++ rsv) (0xFF#8 ++ 0#22) k 0#2).trans ?_, fun h => ?_⟩
  · rw [append_mask]; simp
  · simp only [Instr.reservedZero, beq_iff_eq] at h
    subst h; revert k; decide

theorem dflStart (rsv : BitVec 20) (lvl : BitVec 4) : Statement (.dflStart rsv lvl) := by
  refine ⟨_, rfl, (append_mask (0x10#8 ++ rsv) (0xFF#8 ++ 0#20) lvl 0#4).trans ?_, fun h => ?_⟩
  · rw [append_mask]; simp
  · simp only [Instr.reservedZero, beq_iff_eq] at h
    subst h; revert lvl; decide

theorem dflByte (rsv : BitVec 16) (b : Byte) : Statement (.dflByte rsv b) := by
  refine ⟨_, rfl, (append_mask (0x11#8 ++ rsv) (0xFF#8 ++ 0#16) b 0#8).trans ?_, fun h => ?_⟩
  · rw [append_mask]; simp
  · simp only [Instr.reservedZero, beq_iff_eq] at h
    subst h; revert b; decide

theorem dflWord (rsv : BitVec 22) (k : BitVec 2) : Statement (.dflWord rsv k) := by
  refine ⟨_, rfl, (append_mask (0x12#8 ++ rsv) (0xFF#8 ++ 0#22) k 0#2).trans ?_, fun h => ?_⟩
  · rw [append_mask]; simp
  · simp only [Instr.reservedZero, beq_iff_eq] at h
    subst h; revert k; decide

theorem dflFinish (rsv : BitVec 24) : Statement (.dflFinish rsv) := by
  refine ⟨_, rfl, (append_mask _ 0xFF#8 _ 0#24).trans (by simp), fun h => ?_⟩
  simp only [Instr.reservedZero, beq_iff_eq] at h
  subst h; decide

theorem dflAbort (rsv : BitVec 24) : Statement (.dflAbort rsv) := by
  refine ⟨_, rfl, (append_mask _ 0xFF#8 _ 0#24).trans (by simp), fun h => ?_⟩
  simp only [Instr.reservedZero, beq_iff_eq] at h
  subst h; decide

theorem illegal04 (rest : BitVec 26) : Statement (.illegal04 rest) := by
  have h : ∀ x : BitVec 26, x &&& 0#26 = 0#26 := fun x => BitVec.and_zero
  refine ⟨_, rfl, (append_mask _ (BitVec.allOnes 6) _ 0#26).trans ?_, fun _ => (append_mask _ (BitVec.allOnes 6) _ 0#26).trans ?_⟩ <;> simp

theorem illegal08 (rest : BitVec 27) : Statement (.illegal08 rest) := by
  have h : ∀ x : BitVec 27, x &&& 0#27 = 0#27 := fun x => BitVec.and_zero
  refine ⟨_, rfl, (append_mask _ (BitVec.allOnes 5) _ 0#27).trans ?_, fun _ => (append_mask _ (BitVec.allOnes 5) _ 0#27).trans ?_⟩ <;> simp

theorem illegal15 (rest : BitVec 24) : Statement (.illegal15 rest) := by
  have h : ∀ x : BitVec 24, x &&& 0#24 = 0#24 := fun x => BitVec.and_zero
  refine ⟨_, rfl, (append_mask _ (BitVec.allOnes 8) _ 0#24).trans ?_, fun _ => (append_mask _ (BitVec.allOnes 8) _ 0#24).trans ?_⟩ <;> simp

theorem illegal16 (rest : BitVec 25) : Statement (.illegal16 rest) := by
  have h : ∀ x : BitVec 25, x &&& 0#25 = 0#25 := fun x => BitVec.and_zero
  refine ⟨_, rfl, (append_mask _ (BitVec.allOnes 7) _ 0#25).trans ?_, fun _ => (append_mask _ (BitVec.allOnes 7) _ 0#25).trans ?_⟩ <;> simp

theorem illegal18 (rest : BitVec 27) : Statement (.illegal18 rest) := by
  have h : ∀ x : BitVec 27, x &&& 0#27 = 0#27 := fun x => BitVec.and_zero
  refine ⟨_, rfl, (append_mask _ (BitVec.allOnes 5) _ 0#27).trans ?_, fun _ => (append_mask _ (BitVec.allOnes 5) _ 0#27).trans ?_⟩ <;> simp

theorem illegal20 (rest : BitVec 29) : Statement (.illegal20 rest) := by
  have h : ∀ x : BitVec 29, x &&& 0#29 = 0#29 := fun x => BitVec.and_zero
  refine ⟨_, rfl, (append_mask _ (BitVec.allOnes 3) _ 0#29).trans ?_, fun _ => (append_mask _ (BitVec.allOnes 3) _ 0#29).trans ?_⟩ <;> simp

theorem illegal40 (rest : BitVec 30) : Statement (.illegal40 rest) := by
  have h : ∀ x : BitVec 30, x &&& 0#30 = 0#30 := fun x => BitVec.and_zero
  refine ⟨_, rfl, (append_mask _ (BitVec.allOnes 2) _ 0#30).trans ?_, fun _ => (append_mask _ (BitVec.allOnes 2) _ 0#30).trans ?_⟩ <;> simp

theorem illegal80 (rest : BitVec 31) : Statement (.illegal80 rest) := by
  have h : ∀ x : BitVec 31, x &&& 0#31 = 0#31 := fun x => BitVec.and_zero
  refine ⟨_, rfl, (append_mask _ (BitVec.allOnes 1) _ 0#31).trans ?_, fun _ => (append_mask _ (BitVec.allOnes 1) _ 0#31).trans ?_⟩ <;> simp

theorem rdId : Statement (.rdId) := ⟨_, rfl, by decide⟩

theorem rdStatus : Statement (.rdStatus) := ⟨_, rfl, by decide⟩

theorem rdCmd : Statement (.rdCmd) := ⟨_, rfl, by decide⟩

theorem rdOpnd : Statement (.rdOpnd) := ⟨_, rfl, by decide⟩

theorem rdCrcState : Statement (.rdCrcState) := ⟨_, rfl, by decide⟩

theorem rdCrcOut : Statement (.rdCrcOut) := ⟨_, rfl, by decide⟩

theorem rdCrcCount : Statement (.rdCrcCount) := ⟨_, rfl, by decide⟩

theorem rdDflLevel : Statement (.rdDflLevel) := ⟨_, rfl, by decide⟩

theorem rdDflInLen : Statement (.rdDflInLen) := ⟨_, rfl, by decide⟩

theorem rdDflOutLen : Statement (.rdDflOutLen) := ⟨_, rfl, by decide⟩

theorem rdDflOutPtr : Statement (.rdDflOutPtr) := ⟨_, rfl, by decide⟩

theorem rdDflOutData : Statement (.rdDflOutData) := ⟨_, rfl, by decide⟩

theorem rdDflAdler : Statement (.rdDflAdler) := ⟨_, rfl, by decide⟩

theorem rdErrCause : Statement (.rdErrCause) := ⟨_, rfl, by decide⟩

theorem rdErrCmd : Statement (.rdErrCmd) := ⟨_, rfl, by decide⟩

theorem rdReserved3C : Statement (.rdReserved3C) := ⟨_, rfl, by decide⟩

theorem rdReserved40 (i : BitVec 4) : Statement (.rdReserved40 i) :=
  ⟨_, rfl, by
    revert i; decide⟩

theorem rdReserved80 (i : BitVec 5) : Statement (.rdReserved80 i) :=
  ⟨_, rfl, by
    revert i; decide⟩

theorem wrId (v : Word) : Statement (.wrId v) := ⟨_, rfl, by decide⟩

theorem wrStatus (v : Word) : Statement (.wrStatus v) := ⟨_, rfl, by decide⟩

theorem wrCmd (w : Word) : Statement (.wrCmd w) := ⟨_, rfl, by decide⟩

theorem wrOpnd (v : Word) : Statement (.wrOpnd v) := ⟨_, rfl, by decide⟩

theorem wrCrcState (v : Word) : Statement (.wrCrcState v) := ⟨_, rfl, by decide⟩

theorem wrCrcOut (v : Word) : Statement (.wrCrcOut v) := ⟨_, rfl, by decide⟩

theorem wrCrcCount (v : Word) : Statement (.wrCrcCount v) := ⟨_, rfl, by decide⟩

theorem wrDflLevel (v : Word) : Statement (.wrDflLevel v) := ⟨_, rfl, by decide⟩

theorem wrDflInLen (v : Word) : Statement (.wrDflInLen v) := ⟨_, rfl, by decide⟩

theorem wrDflOutLen (v : Word) : Statement (.wrDflOutLen v) := ⟨_, rfl, by decide⟩

theorem wrDflOutPtr (v : Word) : Statement (.wrDflOutPtr v) := ⟨_, rfl, by decide⟩

theorem wrDflOutData (v : Word) : Statement (.wrDflOutData v) := ⟨_, rfl, by decide⟩

theorem wrDflAdler (v : Word) : Statement (.wrDflAdler v) := ⟨_, rfl, by decide⟩

theorem wrErrCause (v : Word) : Statement (.wrErrCause v) := ⟨_, rfl, by decide⟩

theorem wrErrCmd (v : Word) : Statement (.wrErrCmd v) := ⟨_, rfl, by decide⟩

theorem wrReserved3C (v : Word) : Statement (.wrReserved3C v) := ⟨_, rfl, by decide⟩

theorem wrReserved40 (i : BitVec 4) (v : Word) : Statement (.wrReserved40 i v) :=
  ⟨_, rfl, by
    revert i; decide⟩

theorem wrReserved80 (i : BitVec 5) (v : Word) : Statement (.wrReserved80 i v) :=
  ⟨_, rfl, by
    revert i; decide⟩

end Sys2Proof.Laws.RowMatch
end

