-- ==== Sys2Proof/Tests/Slice0.lean ====
section
/-! SUPPORT. The model's own tests: ill-formed terms, words written out from the encoding tables of
30_encoding.md, vectors of 95_test_vectors.md, and for every statement with hypotheses a state and operands that
meet them. Expected values are the spec's. -/

namespace Sys2Proof.Tests

open Sys2Proof Sys2Proof.Machine Sys2Proof.Safety

/-! ## Helpers -/

/-- The state after an instruction that answers a next state. -/
def after (i : Instr) (s : State) : Option State :=
  match exec i s with
  | .next t => some t
  | _ => none

/-- The state after a list of instructions. -/
def afterAll (is : List Instr) (s : State) : Option State :=
  match execAll is s with
  | .next t => some t
  | _ => none

/-- The state after one step. -/
def stepped (s : State) : Option State :=
  match step s with
  | .next t => some t
  | _ => none

/-- The refusal of one step. -/
def refusal (s : State) : Option Refusal :=
  match step s with
  | .refused r => some r
  | _ => none

/-- The value a read returns. -/
def valueOf (i : Instr) (s : State) : Option Word := (after i s).bind fun t => t.returned.head?

/-- The error record after an instruction, `STATUS` first. -/
def recordOf (i : Instr) (s : State) : Option (Word × Option Cause × Word) :=
  (after i s).map fun t => (t.status, t.errCause, t.errCmd)

/-- A session open at level 0 with no bytes. -/
def collecting : State := { State.reset with phase := .collect }

/-- A session open under `IN_CAP` = 6 and `OUT_CAP` = 11, one byte collected. -/
def small : State :=
  { State.reset with
    cfg := { window := 0#24, inCap := 6, outCap := 11 }
    phase := .collect
    inBuf := [0x61#8]
    adler := 0x00620062#32 }

/-- The same session with its buffer full. -/
def full : State := { small with inBuf := [1#8, 2#8, 3#8, 4#8, 5#8, 6#8], adler := 0x003E0016#32 }

/-- An empty session, finished. -/
def finished : State := { State.reset with phase := .done, outBuf := envelope 0 [] }

/-- `ERR_SEQ` set by `DFL.BYTE 0` in `IDLE`. -/
def failed : State :=
  { State.reset with err := 0b00100#5, errCause := some .seq, errCmd := 0x11000000#32 }

/-- Reset asserted. -/
def held : State := { State.reset with inReset := true }

/-! ## Ill-formed terms (30_encoding.md R71, R75, R76) -/

theorem test_reserved_bits_are_refused :
    (Instr.nop 1#24).wellFormed = false ∧ (Instr.crcInit 0x800000#24).wellFormed = false ∧
    (Instr.crcByte 1#16 0#8).wellFormed = false ∧ (Instr.crcWord 1#22 3#2).wellFormed = false ∧
    (Instr.dflStart 1#20 0#4).wellFormed = false ∧ (Instr.dflByte 0x8000#16 0#8).wellFormed = false ∧
    (Instr.dflWord 0x200000#22 0#2).wellFormed = false ∧ (Instr.dflFinish 1#24).wellFormed = false ∧
    (Instr.dflAbort 1#24).wellFormed = false := by decide

theorem test_level_ten_is_refused :
    (Instr.dflStart 0#20 10#4).wellFormed = false ∧ (Instr.dflStart 0#20 9#4).wellFormed = true := by decide

theorem test_illegal_words_are_refused :
    (Instr.illegal04 0).wellFormed = false ∧ (Instr.illegal08 0).wellFormed = false ∧
    (Instr.illegal15 0).wellFormed = false ∧ (Instr.illegal16 0).wellFormed = false ∧
    (Instr.illegal18 0).wellFormed = false ∧ (Instr.illegal20 0).wellFormed = false ∧
    (Instr.illegal40 0).wellFormed = false ∧ (Instr.illegal80 0).wellFormed = false := by decide

theorem test_accesses_are_well_formed :
    (Instr.rdReserved80 31#5).wellFormed = true ∧ (Instr.wrCmd 0xFFFFFFFF#32).wellFormed = true := by decide

/-! ## Words written out from the encodings (30_encoding.md R71, R73, R75, R79) -/

theorem test_decode_forms_N_and_B :
    decodeCommand 0b00000000000000000000000000000000#32 = .nop 0#24 ∧
    decodeCommand 0b00000000100000000000000000000001#32 = .nop 0x800001#24 ∧
    decodeCommand 0b00000001000000000000000000000000#32 = .crcInit 0#24 ∧
    decodeCommand 0b00000010000000000000000001001001#32 = .crcByte 0#16 0x49#8 ∧
    decodeCommand 0b00000010000000010000000000000000#32 = .crcByte 0x0100#16 0#8 ∧
    decodeCommand 0b00010001000000000000000001100001#32 = .dflByte 0#16 0x61#8 ∧
    decodeCommand 0b00010011000000000000000000000000#32 = .dflFinish 0#24 ∧
    decodeCommand 0b00010100000000000000000000000000#32 = .dflAbort 0#24 := by decide

theorem test_decode_forms_W_and_L :
    decodeCommand 0b00000011000000000000000000000011#32 = .crcWord 0#22 3#2 ∧
    decodeCommand 0b00000011000000000000000000000100#32 = .crcWord 1#22 0#2 ∧
    decodeCommand 0b00010010000000000000000000000001#32 = .dflWord 0#22 1#2 ∧
    decodeCommand 0b00010000000000000000000000001001#32 = .dflStart 0#20 9#4 ∧
    decodeCommand 0b00010000000000000000000000010000#32 = .dflStart 1#20 0#4 := by decide

theorem test_decode_illegal_words :
    decodeCommand 0x04000000#32 = .illegal04 0 ∧ decodeCommand 0x07FFFFFF#32 = .illegal04 0x3FFFFFF#26 ∧
    decodeCommand 0x08000000#32 = .illegal08 0 ∧ decodeCommand 0x0F000000#32 = .illegal08 0x7000000#27 ∧
    decodeCommand 0x15000001#32 = .illegal15 1 ∧ decodeCommand 0x16000000#32 = .illegal16 0 ∧
    decodeCommand 0x17000000#32 = .illegal16 0x1000000#25 ∧ decodeCommand 0x18000000#32 = .illegal18 0 ∧
    decodeCommand 0x1F000000#32 = .illegal18 0x7000000#27 ∧ decodeCommand 0x20000000#32 = .illegal20 0 ∧
    decodeCommand 0x3F000000#32 = .illegal20 0x1F000000#29 ∧ decodeCommand 0x40000000#32 = .illegal40 0 ∧
    decodeCommand 0x80000000#32 = .illegal80 0 ∧ decodeCommand 0xFF000000#32 = .illegal80 0x7F000000#31 := by
  decide

theorem test_decode_reads :
    [0x00, 0x01, 0x02, 0x03, 0x04, 0x05, 0x06, 0x07, 0x08].map (decodeTableWord 8) =
      [some .rdId, some .rdStatus, some .rdCmd, some .rdOpnd, some .rdCrcState, some .rdCrcOut,
       some .rdCrcCount, some .rdDflLevel, some .rdDflInLen] ∧
    [0x09, 0x0A, 0x0B, 0x0C, 0x0D, 0x0E, 0x0F, 0x10, 0x1F, 0x20, 0x3F].map (decodeTableWord 8) =
      [some .rdDflOutLen, some .rdDflOutPtr, some .rdDflOutData, some .rdDflAdler, some .rdErrCause,
       some .rdErrCmd, some .rdReserved3C, some (.rdReserved40 0), some (.rdReserved40 15),
       some (.rdReserved80 0), some (.rdReserved80 31)] := by decide

theorem test_decode_writes :
    [0x40, 0x41, 0x42, 0x43, 0x44, 0x45, 0x46, 0x47, 0x48].map (decodeTableWord 8) =
      [some (.wrId 0), some (.wrStatus 0), some (.wrCmd 0), some (.wrOpnd 0), some (.wrCrcState 0),
       some (.wrCrcOut 0), some (.wrCrcCount 0), some (.wrDflLevel 0), some (.wrDflInLen 0)] ∧
    [0x49, 0x4A, 0x4B, 0x4C, 0x4D, 0x4E, 0x4F, 0x50, 0x5F, 0x60, 0x7F].map (decodeTableWord 8) =
      [some (.wrDflOutLen 0), some (.wrDflOutPtr 0), some (.wrDflOutData 0), some (.wrDflAdler 0),
       some (.wrErrCause 0), some (.wrErrCmd 0), some (.wrReserved3C 0), some (.wrReserved40 0 0),
       some (.wrReserved40 15 0), some (.wrReserved80 0 0), some (.wrReserved80 31 0)] := by decide

/-- A key with its data word; bit strings that are no encoded instruction, each with its reason. -/
theorem test_decode_bit_strings :
    decodeTableWord 40 0x4948445243 = some (.wrOpnd 0x49484452#32) ∧
    decodeTableWord 32 0x02000049 = some (.crcByte 0#16 0x49#8) ∧
    decodeTableWord 8 0x80 = none ∧ decodeTableWord 8 0x100 = none ∧ decodeTableWord 41 0 = none ∧
    decodeTableWord 0 0 = none := by decide

/-- The row's word is what the next step runs: a command through `CMD`, an access as itself. -/
theorem test_fetch_word_runs :
    (stepped (State.reset.withFetchWord 32 0x10000006)).map (fun t => (t.status, t.level, t.pending)) =
      some (0x00000001#32, 6, []) ∧
    (stepped (State.reset.withFetchWord 8 0x00)).map (fun t => t.returned) = some [0x43524344#32] ∧
    (stepped (State.reset.withFetchWord 40 0x4948445243)).map (fun t => t.opnd) = some 0x49484452#32 := by
  decide

/-! ## The functions (95_test_vectors.md 2.1 to 2.3, 2.6 to 2.8) -/

theorem test_crc_step :
    crcStep 0xFFFFFFFF#32 0x49#8 = 0x22FDE946#32 ∧ crcStep 0x00000000#32 0x80#8 = 0xEDB88320#32 ∧
    crcStep 0x12345678#32 0x9A#8 = 0x4E16B702#32 ∧ crcTable 0xA7#8 = 0x48B2364B#32 := by decide +kernel

theorem test_adler_step :
    adlerStep 0x00000001#32 0xFF#8 = 0x01000100#32 ∧ adlerStep 0xFFF00001#32 0x10#8 = 0x00100011#32 ∧
    adlerStep 0x0000FFF0#32 0x01#8 = 0x00000000#32 ∧ adlerStep 0xFFF0FFF0#32 0xFF#8 = 0x00FD00FE#32 := by decide

theorem test_level_zero_envelope :
    envelope 0 [0x61#8, 0x62#8, 0x63#8] =
      [0x78#8, 0x01#8, 0x01#8, 0x03#8, 0x00#8, 0xFC#8, 0xFF#8, 0x61#8, 0x62#8, 0x63#8, 0x02#8, 0x4D#8, 0x01#8,
       0x27#8] := by decide

/-- Two stored blocks, the split at 65535 bytes. -/
theorem test_stored_block_headers :
    storedBlock false [] = [0x00#8, 0x00#8, 0x00#8, 0xFF#8, 0xFF#8] ∧
    le16 (BitVec.ofNat 16 65535) = [0xFF#8, 0xFF#8] ∧ flg 5 = 0x5E#8 ∧ flg 7 = 0xDA#8 := by decide

/-! ## Single steps of the commands (95_test_vectors.md 2.4, 2.5, 2.9) -/

theorem test_crc_word_takes_the_leading_bytes :
    (after (.crcWord 0#22 0#2) { State.reset with opnd := 0x61FFFFFF#32 }).map (fun t => (t.crcState, t.crcCount)) =
      some (0x174841BC#32, 1#32) ∧
    (after (.crcWord 0#22 3#2) { State.reset with opnd := 0x61626364#32 }).map (fun t => (t.crcState, t.crcCount)) =
      some (0x127D32EE#32, 4#32) := by decide +kernel

theorem test_crc_byte_and_init :
    (after (.crcByte 0#16 0xFF#8) State.reset).map (fun t => (t.crcState, t.crcCount)) =
      some (0x00FFFFFF#32, 1#32) ∧
    (afterAll [.crcByte 0#16 0x61#8, .crcInit 0#24] State.reset) = some State.reset ∧
    (after (.crcByte 0#16 0x00#8) { State.reset with crcCount := 0xFFFFFFFF#32 }).map (fun t => t.crcCount) =
      some 0#32 := by decide +kernel

theorem test_malformed_words :
    recordOf (.wrCmd 0x00000001#32) State.reset = some (0x00000200#32, some .operand, 0x00000001#32) ∧
    recordOf (.wrCmd 0x03000004#32) State.reset = some (0x00000200#32, some .operand, 0x03000004#32) ∧
    recordOf (.wrCmd 0x1000000A#32) State.reset = some (0x00000200#32, some .operand, 0x1000000A#32) ∧
    recordOf (.wrCmd 0x13000001#32) State.reset = some (0x00000200#32, some .operand, 0x13000001#32) := by
  decide

theorem test_illegal_words :
    recordOf (.wrCmd 0x0F000000#32) State.reset = some (0x00000100#32, some .illegal, 0x0F000000#32) ∧
    recordOf (.wrCmd 0xFF000000#32) State.reset = some (0x00000100#32, some .illegal, 0xFF000000#32) := by
  decide

theorem test_sequence_errors :
    recordOf (.dflFinish 0#24) State.reset = some (0x00000400#32, some .seq, 0x13000000#32) ∧
    recordOf (.dflStart 0#20 1#4) collecting = some (0x00000401#32, some .seq, 0x10000001#32) ∧
    recordOf (.dflFinish 0#24) finished = some (0x00000406#32, some .seq, 0x13000000#32) := by decide

theorem test_session_of_one_byte :
    (afterAll [.dflStart 0#20 0#4, .dflByte 0#16 0x61#8, .dflFinish 0#24] State.reset).map
        (fun t => (t.status, t.outBuf)) =
      some (0x00000006#32, [0x78#8, 0x01#8, 0x01#8, 0x01#8, 0x00#8, 0xFE#8, 0xFF#8, 0x61#8, 0x00#8, 0x62#8,
        0x00#8, 0x62#8]) := by decide

theorem test_dfl_word :
    (after (.dflWord 0#22 3#2) collecting).map (fun t => (t.inBuf.length, t.adler)) = some (4, 0x00040001#32) ∧
    (after (.dflWord 0#22 3#2) { small with inBuf := [], adler := 1#32, opnd := 0x01020304#32 }).map
      (fun t => (t.inBuf.length, t.adler)) = some (4, 0x0018000B#32) := by decide

theorem test_overflows_abort :
    (after (.dflByte 0#16 0x41#8) full).map (fun t => (t.status, t.inBuf, t.adler, t.errCmd)) =
      some (0x00000800#32, [], 0x00000001#32, 0x11000041#32) ∧
    (after (.dflFinish 0#24) small).map (fun t => (t.status, t.inBuf, t.outBuf, t.errCmd)) =
      some (0x00001000#32, [], [], 0x13000000#32) ∧
    (after (.dflFinish 0#24) { small with inBuf := [], adler := 1#32 }).map (fun t => (t.status, t.outBuf.length)) =
      some (0x00000006#32, 11) := by decide

theorem test_abort_keeps_level_and_errors :
    (after (.dflAbort 0#24) { finished with level := 6, err := 1#5 }).map (fun t => (t.status, t.level)) =
      some (0x00000100#32, 6) := by decide

/-! ## Accesses (95_test_vectors.md 2.10) -/

theorem test_reads_at_reset :
    [Instr.rdId, .rdStatus, .rdCmd, .rdOpnd, .rdCrcState, .rdCrcOut, .rdCrcCount, .rdDflLevel].map
        (fun i => valueOf i State.reset) =
      [some 0x43524344#32, some 0#32, some 0#32, some 0#32, some 0xFFFFFFFF#32, some 0#32, some 0#32,
       some 0#32] ∧
    [Instr.rdDflInLen, .rdDflOutLen, .rdDflOutPtr, .rdDflOutData, .rdDflAdler, .rdErrCause, .rdErrCmd,
        .rdReserved3C, .rdReserved40 0, .rdReserved80 31].map (fun i => valueOf i State.reset) =
      [some 0#32, some 0#32, some 0#32, some 0x00000100#32, some 1#32, some 0#32, some 0#32, some 0#32, some 0#32,
       some 0#32] := by decide

theorem test_output_is_read_in_order :
    (afterAll (List.replicate 12 .rdDflOutData) finished).map (fun t => (observation t, t.outPtr, t.status)) =
      some ([0x78#32, 0x01#32, 0x01#32, 0x00#32, 0x00#32, 0xFF#32, 0xFF#32, 0x00#32, 0x00#32, 0x00#32, 0x01#32,
        0x100#32], 11#32, 0x00000002#32) := by decide

theorem test_status_write :
    recordOf (.wrStatus 0x00000400#32)
        { failed with err := 0b00101#5, errCause := some .illegal, errCmd := 0x04000000#32 } =
      some (0x00000100#32, some .illegal, 0x04000000#32) ∧
    recordOf (.wrStatus 0x00000003#32) failed = some (0x00000400#32, some .seq, 0x11000000#32) ∧
    recordOf (.wrStatus 0x00001F00#32) failed = some (0x00000000#32, none, 0x00000000#32) := by decide

theorem test_ignored_and_staged_writes :
    after (.wrCrcState 0x12345678#32) finished = some finished ∧
    after (.wrDflOutData 0x5#32) finished = some finished ∧
    (after (.wrOpnd 0x49484452#32) State.reset).map (fun t => t.opnd) = some 0x49484452#32 := by decide

theorem test_reset_input :
    stepped { held with phase := .done, opnd := 5#32, pending := [.reset false] } = some State.reset ∧
    stepped { finished with pending := [.reset false] } = some finished := by decide

/-! ## The notation of 30_encoding.md R81 to R83 -/

theorem test_assembler :
    assemble (.crcByte 0x49) = some 0x02000049#32 ∧ assemble (.crcWord 4) = some 0x03000003#32 ∧
    assemble (.dflStart 6) = some 0x10000006#32 ∧ assemble (.dflStart 10) = none := by decide

theorem test_pseudo_instructions :
    pseudoCrcTag 0x49#8 0x45#8 0x4E#8 0x44#8 =
      [.write 0x03#6 0x49454E44#32, .command 0x03000003#32] ∧
    pseudoErrClear = [.write 0x01#6 0x00001F00#32] ∧
    pseudoDflBytes [1#8, 2#8, 3#8, 4#8, 5#8] =
      [.write 0x03#6 0x01020304#32, .command 0x12000003#32, .write 0x03#6 0x05000000#32,
       .command 0x12000000#32] := by decide

/-! ## The hypotheses of the statements can be met -/

theorem witness_UnassignedOpcodesAreTheIllegalWords :
    (decodeCommand 0x04000000#32).opcodeAssigned = false ∧ (decodeCommand 0x15000000#32).opcodeAssigned = false ∧
    (decodeCommand 0x14000000#32).opcodeAssigned = true ∧ (decodeCommand 0x10FFFFFF#32).opcodeAssigned = true := by
  decide

theorem witness_WellFormedCommandsAreTheLegalWords :
    (decodeCommand 0x10000009#32).wellFormed = true ∧ (decodeCommand 0x1000000A#32).wellFormed = false ∧
    (decodeCommand 0x020000FF#32).wellFormed = true ∧ (decodeCommand 0x12000004#32).wellFormed = false := by
  decide

theorem witness_AssemblerEmitsTheCommandOrRefuses :
    (9#4 : BitVec 4).toNat ≤ 9 ∧ 255 < 256 ∧ (0 = 0 ∨ 4 < 0) ∧ (5 = 0 ∨ 4 < 5) ∧ 9 < 10 := by decide

theorem witness_StepPerformsTheOldestAccess :
    let s := { State.reset with pending := [.read (busAddr Config.default 0x3F#6) 4] }
    let t := { State.reset with pending := [.write (busAddr Config.default 0x02#6) 4 0#32] }
    s.inReset = false ∧ s.pending = [.read (busAddr s.cfg 0x3F#6) 4] ∧
    t.inReset = false ∧ t.pending = [.write (busAddr t.cfg 0x02#6) 4 0#32] := by decide

theorem witness_AccessesThePortCannotExpressHaveNoStep :
    refusal { State.reset with pending := [.read 0x00000000#32 2] } = some .notWordAccess ∧
    refusal { State.reset with pending := [.write 0x0000000A#32 4 0#32] } = some .misalignedAccess ∧
    refusal { State.reset with pending := [.read 0x00000100#32 4] } = some .outOfWindow ∧
    (0x00000100#32).extractLsb' 0 2 = 0#2 ∧
    (0x00000100#32).extractLsb' 8 24 ≠ State.reset.cfg.base.extractLsb' 8 24 := by decide

theorem witness_NoAccessHasAStepDuringReset :
    held.inReset = true ∧ refusal { held with pending := [.read 0#32 4] } = some .accessDuringReset := by decide

theorem witness_ReleaseOfResetLeavesTheResetState :
    ∃ s0 rest, s0.inReset = true ∧ s0.pending = .reset false :: rest ∧ step s0 = .next State.reset :=
  ⟨{ held with opnd := 7#32, pending := [.reset false] }, [], rfl, rfl, rfl⟩

theorem witness_IllegalWordRecordsIllegalAndNothingElse :
    (0x04 ≤ (opcode 0x0F000000#32).toNat ∧ (opcode 0x0F000000#32).toNat ≤ 0x0F) ∧
    0x15 ≤ (opcode 0x15000000#32).toNat ∧ 0x15 ≤ (opcode 0xFFFFFFFF#32).toNat := by decide

theorem witness_MalformedWordRecordsOperandAndNothingElse :
    (opcode 0x14000001#32 ∈ [0x00#8, 0x01#8, 0x13#8, 0x14#8] ∧ (0x14000001#32).extractLsb' 0 24 ≠ 0#24) ∧
    (opcode 0x02000100#32 ∈ [0x02#8, 0x11#8] ∧ (0x02000100#32).extractLsb' 8 16 ≠ 0#16) ∧
    (opcode 0x12000004#32 ∈ [0x03#8, 0x12#8] ∧ (0x12000004#32).extractLsb' 2 22 ≠ 0#22) ∧
    (opcode 0x10000010#32 = 0x10#8 ∧ (0x10000010#32).extractLsb' 4 20 ≠ 0#20) ∧
    (opcode 0x1000000A#32 = 0x10#8 ∧ 10 ≤ ((0x1000000A#32).extractLsb' 0 4).toNat) := by decide

theorem witness_FirstFailingCheckDecidesTheError :
    firstFailingCheck 0x00000000#32 State.reset = none ∧
    firstFailingCheck 0x15000000#32 State.reset = some .illegal ∧
    firstFailingCheck 0x11000100#32 State.reset = some .operand ∧
    firstFailingCheck 0x11000000#32 State.reset = some .seq ∧
    firstFailingCheck 0x12000003#32 full = some .inOvf ∧
    firstFailingCheck 0x13000000#32 small = some .outOvf := by decide

theorem witness_OnlyCmdWritesRaiseErrors :
    Instr.isCommand (.wrStatus 0x1F00#32) = false ∧ ∀ w, Instr.wrStatus 0x1F00#32 ≠ .wrCmd w :=
  ⟨rfl, fun w h => by cases h⟩

/-- One fall by acknowledgement, one by reset. -/
theorem witness_ErrorBitsFallOnlyByAcknowledgementOrReset :
    (∃ t, step (offer (.write 0x01#6 0x400#32) failed) = .next t ∧
      failed.err.getLsbD 2 = true ∧ t.err.getLsbD 2 = false) ∧
    (∃ t, step { failed with inReset := true, pending := [.reset false] } = .next t ∧
      failed.err.getLsbD 2 = true ∧ t.err.getLsbD 2 = false) :=
  ⟨⟨_, rfl, by decide, by decide⟩, ⟨_, rfl, by decide, by decide⟩⟩

theorem witness_ErrorRecordGatesNoCommand :
    Instr.isCommand (.dflByte 0#16 0#8) = true ∧ Instr.isCommand (.illegal80 0) = true := by decide

/-- For the clauses about nonzero reserved bits of `NOP`, `CRC.INIT`, `CRC.BYTE`, `CRC.WORD`, `DFL.START`,
`DFL.BYTE`, `DFL.WORD`, `DFL.FINISH` and `DFL.ABORT`. -/
theorem witness_reserved_bits :
    (0x800000#24 : BitVec 24) ≠ 0#24 ∧ (1#16 : BitVec 16) ≠ 0#16 ∧ (1#22 : BitVec 22) ≠ 0#22 ∧
    (1#20 : BitVec 20) ≠ 0#20 := by decide

theorem witness_OneChangedByteChangesTheChecksum : (0x00#8 : Byte) ≠ 0x01#8 := by decide

theorem witness_ChecksumSequenceReturnsTheChecksum : State.reset.inReset = false := rfl

theorem witness_CrcStateMovesOnlyByInitAndFeeding :
    resolve (.wrCmd 0x01000000#32) = .crcInit 0#24 ∧ resolve (.wrCmd 0x02000061#32) ≠ .crcInit 0#24 := by decide

theorem witness_CrcCommandsLeaveTheWrapperAlone :
    (opcode 0x03000003#32).toNat ≤ 0x03 ∧ (opcode 0x00000000#32).toNat ≤ 0x03 := by decide

theorem witness_DflStartOpensASession :
    State.reset.phase ≠ .collect ∧ finished.phase ≠ .collect ∧ (9#4 : BitVec 4).toNat ≤ 9 ∧
    collecting.phase = .collect ∧ (10#4 : BitVec 4).toNat > 9 := by decide

theorem witness_DflByteAppendsItsByte :
    (small.phase = .collect ∧ { small with inBuf := [1#8, 2#8, 3#8, 4#8, 5#8] }.inBuf.length + 1 ≤ small.cfg.inCap) ∧
    (full.phase = .collect ∧ full.inBuf.length + 1 > full.cfg.inCap) ∧ finished.phase ≠ .collect := by decide

theorem witness_DflWordAppendsTheLeadingBytes :
    (small.phase = .collect ∧ small.inBuf.length + ((3#2 : BitVec 2).toNat + 1) ≤ small.cfg.inCap) ∧
    (full.phase = .collect ∧ full.inBuf.length + ((0#2 : BitVec 2).toNat + 1) > full.cfg.inCap) ∧
    State.reset.phase ≠ .collect := by decide

theorem witness_DflFinishProducesTheEnvelope :
    (collecting.phase = .collect ∧ (envelope 0 []).length ≤ collecting.cfg.outCap ∧
      collecting.adler = a32 collecting.inBuf) ∧
    (small.phase = .collect ∧ small.finished.length > small.cfg.outCap) ∧ State.reset.phase ≠ .collect := by decide

theorem witness_DflAbortEndsTheSession :
    State.reset.phase = .idle ∧ State.reset.inBuf = [] ∧ State.reset.outBuf = [] ∧
    State.reset.outPtr = 0x00000000#32 ∧ State.reset.adler = 0x00000001#32 := by decide

/-- A step that changes the phase by a command, and one that changes it by reset. -/
theorem witness_PhaseChangesOnlyByTheTable :
    (∃ t, step (offer (.command 0x10000000#32) State.reset) = .next t ∧ t.phase ≠ State.reset.phase) ∧
    (∃ t, step { finished with inReset := true, pending := [.reset false] } = .next t ∧
      t.phase ≠ finished.phase) :=
  ⟨⟨_, rfl, by decide⟩, ⟨_, rfl, by decide⟩⟩

/-- Every row of the phase table has a state and a command, at the boundary of its condition. -/
theorem witness_PhaseRows :
    PhaseRow (.dflStart 0#20 9#4) finished .collect ∧
    PhaseRow (.dflByte 0#16 0#8) { small with inBuf := [1#8, 2#8, 3#8, 4#8, 5#8] } .collect ∧
    PhaseRow (.dflWord 0#22 3#2) { small with inBuf := [1#8, 2#8] } .collect ∧
    PhaseRow (.dflByte 0#16 0#8) full .idle ∧
    PhaseRow (.dflWord 0#22 0#2) full .idle ∧ PhaseRow (.dflFinish 0#24) collecting .done ∧
    PhaseRow (.dflFinish 0#24) small .idle ∧ PhaseRow (.dflAbort 0#24) collecting .idle :=
  ⟨.inl ⟨9#4, rfl, by decide, by decide, rfl⟩, .inr (.inl ⟨0#8, rfl, rfl, by decide, rfl⟩),
   .inr (.inr (.inl ⟨3#2, rfl, rfl, by decide, rfl⟩)), .inr (.inr (.inr (.inl ⟨0#8, rfl, rfl, by decide, rfl⟩))),
   .inr (.inr (.inr (.inr (.inl ⟨0#2, rfl, rfl, by decide, rfl⟩)))),
   .inr (.inr (.inr (.inr (.inr (.inl ⟨rfl, rfl, by decide, rfl⟩))))),
   .inr (.inr (.inr (.inr (.inr (.inr (.inl ⟨rfl, rfl, by decide, rfl⟩)))))),
   .inr (.inr (.inr (.inr (.inr (.inr (.inr ⟨rfl, rfl⟩))))))⟩

/-- An instruction in no row of the phase table, and a release of reset from `DONE`. -/
theorem witness_PhaseKeptAndReset :
    (∀ p, ¬ PhaseRow (resolve (.wrCmd 0x00000000#32)) finished p) ∧
    { finished with inReset := true, pending := [.reset false] }.pending = [.reset false] := by
  refine ⟨fun p h => ?_, rfl⟩
  have hr : resolve (.wrCmd 0x00000000#32) = .nop 0#24 := by decide
  rw [hr] at h
  simp [PhaseRow] at h

theorem witness_SessionReturnsTheEnvelope :
    State.reset.inReset = false ∧ State.reset.phase ≠ .collect ∧ [0x61#8].length ≤ State.reset.cfg.inCap ∧
    (envelope 0 [0x61#8]).length ≤ State.reset.cfg.outCap ∧ State.reset.cfg.outCap ≤ 2 ^ 32 - 1 := by decide

theorem witness_BodyOfTheEnvelopeDecodesToTheData :
    (1 : Level) ≠ 0 ∧ DeflateDecodable (fun _ => some [0x61#8]) 1 [0x61#8] := ⟨by decide, rfl⟩

theorem collecting_inv : Inv collecting :=
  { params := by decide
    idle := fun h => by cases h
    collect := fun _ => ⟨by decide, rfl, rfl, rfl⟩
    done := fun h => by cases h
    cause := by decide
    word := by decide }

theorem witness_LevelZeroNeverOverflowsByDefault :
    Inv collecting ∧ collecting.cfg.inCap = 262400 ∧ collecting.cfg.outCap = 524800 ∧
    collecting.phase = .collect ∧ collecting.level = 0 :=
  ⟨collecting_inv, rfl, rfl, rfl, rfl⟩

theorem witness_OutputReadReturnsTheNextByteOrEmpty :
    (finished.phase = .done ∧ { finished with outPtr := 10#32 }.outPtr.toNat < finished.outBuf.length) ∧
    ¬ (finished.phase = .done ∧ { finished with outPtr := 11#32 }.outPtr.toNat < finished.outBuf.length) ∧
    ¬ (collecting.phase = .done ∧ collecting.outPtr.toNat < collecting.outBuf.length) := by decide

theorem witness_OpndWriteStagesItsValue : ∀ v, Instr.crcWord 0#22 3#2 ≠ .wrOpnd v := fun v h => by cases h

theorem witness_StatusWriteClearsTheErrorBitsWrittenAsOne :
    0b00101#5 &&& ~~~ clearMask 0x400#32 ≠ 0#5 ∧ 0b00101#5 &&& ~~~ clearMask 0x1F00#32 = 0#5 := by decide

theorem witness_WritesToReadOnlyRegistersAreIgnored :
    ((0x00#6 : BitVec 6).toNat = 0 ∨ 4 ≤ (0x00#6 : BitVec 6).toNat) ∧ 4 ≤ (0x04#6 : BitVec 6).toNat ∧
    4 ≤ (0x3F#6 : BitVec 6).toNat := by decide

theorem witness_ReadsButOutputDataAreIdempotent :
    (0x0A#6 : BitVec 6) ≠ 0x0B#6 ∧ (0x0C#6 : BitVec 6) ≠ 0x0B#6 := by decide

/-- A step that changes `OPND` by a write, and one that changes it by reset. -/
theorem witness_OpndAndParametersChangeOnlyAsStated :
    (∃ t, step (offer (.write 0x03#6 5#32) State.reset) = .next t ∧ t.opnd ≠ State.reset.opnd) ∧
    (∃ t, step { State.reset with opnd := 5#32, inReset := true, pending := [.reset false] } = .next t ∧
      t.opnd ≠ 5#32) :=
  ⟨⟨_, rfl, by decide⟩, ⟨_, rfl, by decide⟩⟩

theorem witness_EveryStepKeepsTheInvariant :
    ∃ t, Inv (offer (.command 0x13000000#32) collecting) ∧
      step (offer (.command 0x13000000#32) collecting) = .next t :=
  ⟨_, { collecting_inv with }, rfl⟩

theorem witness_DriverStepsCommute :
    [Instr.wrStatus 0x00001F00#32, .wrCmd 0x01000000#32, .wrCmd 0x14000000#32].Perm
      [.wrCmd 0x14000000#32, .wrCmd 0x01000000#32, .wrStatus 0x00001F00#32] := by decide

theorem witness_HostProgramReadsReachTheBlock : (HostMachine.start State.reset).block.inReset = false := rfl

/-- `WR CMD, h5` of program P3: the register's value is the word written. -/
theorem test_host_register_write :
    (match runLine { HostMachine.start State.reset with h := (Vector.replicate 8 0#32).set 5 0x10000006#32 }
        (.wr 0x02#6 (.reg 5)) with
      | .next m => some (m.block.status, m.block.level, m.line)
      | _ => none) = some (0x00000001#32, 6, 1) := by decide

end Sys2Proof.Tests
end

/-! The statements of 10_state.md: the invariant of R44 is kept by every step, what the release of reset leaves
(R47), who changes the error bits (R27), `OPND` (R29) and the parameters, and the write to `CMD` (R28). What an
instruction can do is read off `Effect`, and what a step can be off `step_next_cases`. -/

namespace Sys2Proof.Machine

open Sys2Proof.Safety

/-! ## Each shared operation keeps the invariant of R44 -/

section Invariant

variable {s : State}

/-- The record holds a cause and its word together, and the word of a command that fails is not 0. -/
theorem inv_recordError (h : Inv s) (c : Cause) {w : Word} (hw : w ≠ 0#32) : Inv (recordError c w s) :=
  { h with
    cause := by simpa using recordError_err_ne_zero c w s
    word := by simpa using hw }

theorem inv_acknowledge (h : Inv s) (v : Word) : Inv (acknowledge v s) := by
  obtain ⟨-, hack⟩ | ⟨hleft, hack⟩ := acknowledge_cases v s <;> rw [hack]
  · exact { h with cause := by simp, word := by simp }
  · have herr : s.err ≠ 0#5 := fun h0 => hleft (by simp [h0])
    have hcause : s.errCause ≠ none := mt h.cause.mp herr
    exact { h with cause := iff_of_false hcause hleft }

theorem inv_feedAll (h : Inv s) (d : Bytes) : Inv (feedAll d s) := by
  rw [feedAll_eq]
  exact { h with }

theorem inv_abortSession (h : Inv s) : Inv (abortSession s) :=
  { h with
    idle := fun _ => ⟨rfl, rfl, rfl, rfl⟩
    collect := nofun
    done := nofun }

theorem inv_openSession (h : Inv s) (l : Level) : Inv (openSession l s) :=
  { h with
    idle := nofun
    collect := fun _ => ⟨Nat.zero_le _, rfl, rfl, rfl⟩
    done := nofun }

/-- Appending within `IN_CAP` folds the same bytes into the Adler-32 as it adds to `IN_BUF`. -/
theorem inv_appendAll (h : Inv s) {d : Bytes} (hp : s.phase = .collect)
    (hd : s.inBuf.length + d.length ≤ s.cfg.inCap) : Inv (appendAll d s) := by
  obtain ⟨-, hout, hptr, hadler⟩ := h.collect hp
  rw [appendAll_eq]
  exact { h with
    idle := fun hi => by simp [hp] at hi
    collect := fun _ => ⟨by simpa using hd, hout, hptr, by simp [hadler, a32_append]⟩
    done := fun hi => by simp [hp] at hi }

/-- The trailer `DFL.FINISH` takes from `DFL_ADLER` is that of the envelope while the Adler-32 is `IN_BUF`'s. -/
theorem finished_eq_envelope (h : s.adler = a32 s.inBuf) : s.finished = envelope s.level s.inBuf := by
  rw [State.finished, h, envelope]

theorem inv_closeSession (h : Inv s) (hp : s.phase = .collect) (hc : s.finished.length ≤ s.cfg.outCap) :
    Inv (closeSession s.finished s) := by
  obtain ⟨hlen, -, -, hadler⟩ := h.collect hp
  exact { h with
    idle := nofun
    collect := nofun
    done := fun _ => ⟨hlen, hadler, finished_eq_envelope hadler, hc, Nat.zero_le _⟩ }

/-- A pointer below the end of `OUT_BUF` advances without wrapping, since `OUT_CAP` is below 2^32. -/
theorem inv_advanceOutPtr (h : Inv s) (hp : s.phase = .done) (hlt : s.outPtr.toNat < s.outBuf.length) :
    Inv { s with outPtr := s.outPtr + 1 } := by
  obtain ⟨-, -, -, hcap⟩ := h.params
  obtain ⟨hlen, hadler, hout, hfit, -⟩ := h.done hp
  have hptr : (s.outPtr + 1).toNat ≤ s.outBuf.length := by
    rw [BitVec.toNat_add]
    exact (Nat.mod_le _ _).trans hlt
  exact { h with
    idle := fun hi => by simp [hp] at hi
    collect := fun hi => by simp [hp] at hi
    done := fun _ => ⟨hlen, hadler, hout, hfit, hptr⟩ }

theorem inv_answer (h : Inv s) (v : Word) : Inv (answer v s) := { h with }

theorem inv_readOut (h : Inv s) : Inv (readOut s) := by
  obtain ⟨b, hp, hb, hread⟩ | ⟨-, hread⟩ := readOut_cases s <;> rw [hread]
  · exact inv_answer (inv_advanceOutPtr h hp (List.getElem?_eq_some_iff.mp hb).1) _
  · exact inv_answer h _

theorem inv_popEvent (h : Inv s) : Inv (popEvent s) := { h with }

/-- The state a reset leaves meets R44 whatever the state was, for parameters within R7's bounds. -/
theorem inv_resetBlock (hc : s.cfg.Valid) : Inv (resetBlock s) :=
  { params := hc
    idle := fun _ => ⟨rfl, rfl, rfl, rfl⟩
    collect := nofun
    done := nofun
    cause := iff_of_true rfl rfl
    word := iff_of_true rfl rfl }

theorem inv_driveReset (h : Inv s) (a : Bool) : Inv (driveReset a s) := by
  obtain ⟨-, hd⟩ | ⟨-, -, hd⟩ | ⟨-, -, hd⟩ := driveReset_cases a s <;> rw [hd]
  · exact { h with }
  · exact inv_resetBlock h.params
  · exact h

/-- Every effect an instruction can have keeps the invariant. -/
theorem inv_exec {i : Instr} {t : State} (h : Inv s) (he : exec i s = .next t) : Inv t := by
  cases exec_effect he with
  | quiet => exact h
  | error c w hw => exact inv_recordError h c hw
  | overflow c w hw => exact inv_recordError (inv_abortSession h) c hw
  | crcInit => exact { h with }
  | fed d => exact inv_feedAll h d
  | opened l => exact inv_openSession h l
  | appended d hp hd => exact inv_appendAll h hp hd
  | closed _ hp hc => exact inv_closeSession h hp hc
  | aborted => exact inv_abortSession h
  | answered v => exact inv_answer h v
  | outRead => exact inv_readOut h
  | acknowledged v => exact inv_acknowledge h v
  | staged v => exact { h with }

end Invariant

/-! ## What an instruction does to the parameters, `OPND` and the error bits -/

section Frame

variable {i : Instr} {s t : State}

theorem exec_cfg (h : exec i s = .next t) : t.cfg = s.cfg := by
  cases exec_effect h with
  | fed d => rw [feedAll_eq]
  | appended d => rw [appendAll_eq]
  | _ => simp

/-- Only `WR OPND` stages an operand (10_state.md R29). -/
theorem exec_opnd_cases (h : exec i s = .next t) : t.opnd = s.opnd ∨ i = .wrOpnd t.opnd := by
  cases exec_effect h with
  | staged v hi => exact .inr hi
  | fed d => rw [feedAll_eq]; exact .inl rfl
  | appended d => rw [appendAll_eq]; exact .inl rfl
  | _ => exact .inl (by simp)

/-- Only `WR STATUS` clears error bits; every other instruction sets some or none (10_state.md R27). -/
theorem exec_err_cases (h : exec i s = .next t) :
    (∃ v, i = .wrStatus v ∧ t.err = s.err &&& ~~~ clearMask v) ∨ ∃ e, t.err = s.err ||| e := by
  cases exec_effect h with
  | acknowledged v hi => exact .inl ⟨v, hi, acknowledge_err v s⟩
  | error c | overflow c => exact .inr ⟨c.bit, rfl⟩
  | fed d => rw [feedAll_eq]; exact .inr ⟨0#5, by simp⟩
  | appended d => rw [appendAll_eq]; exact .inr ⟨0#5, by simp⟩
  | _ => exact .inr ⟨0#5, by simp⟩

/-- An acknowledgement clears an error bit only where its value has a 1 (42_register_access.md R175). -/
theorem getLsbD_of_acknowledged {e : BitVec 5} {v : Word} {j : Nat} (hset : e.getLsbD j = true)
    (hclear : (e &&& ~~~ clearMask v).getLsbD j = false) : v.getLsbD (8 + j) = true := by
  have hj : j < 5 := BitVec.lt_of_getLsbD hset
  simpa [clearMask, hset, hj] using hclear

end Frame

/-! ## Every command completes -/

/-- A command answers a next state: `raise Error` is one too (60_exceptions.md R205). -/
theorem exec_command_completes {i : Instr} (hi : i.isCommand = true) (s : State) :
    ∃ t, exec i s = .next t := by
  cases i with
  | nop | crcInit | crcByte | crcWord | dflByte | dflWord | dflFinish | dflAbort =>
    simp only [exec, execNop, execCrcInit, execCrcByte, execCrcWord, execDflByte, execDflWord, execDflFinish,
      execDflAbort, overflow, raiseError]
    split_ifs <;> exact ⟨_, rfl⟩
  | dflStart rsv lvl =>
    simp only [exec, execDflStart, raiseError]
    cases levelOf lvl <;> dsimp only <;> split_ifs <;> exact ⟨_, rfl⟩
  | illegal04 | illegal08 | illegal15 | illegal16 | illegal18 | illegal20 | illegal40 | illegal80 =>
    exact ⟨_, rfl⟩
  | _ => cases hi

/-! ## The release of reset -/

/-- The release of an asserted reset, as one step (70_reset_and_hazards.md R230). -/
theorem step_release {s : State} {rest : List Event} (hr : s.inReset = true)
    (hp : s.pending = .reset false :: rest) : step s = .next (resetBlock (popEvent s)) := by
  simp [step, fetch, hp, requestOf, driveReset, hr]

/-- After reset no error bit is set, the phase is `IDLE` and no output is available (10_state.md R24). -/
theorem resetBlock_status (s : State) : (resetBlock s).status = 0x00000000#32 := by
  have hout : (resetBlock s).outAvail = false := rfl
  rw [State.status, hout, resetBlock_err, resetBlock_phase]
  decide

/-- `CRC_OUT` of the unit's initial state is 0, the checksum of no bytes (10_state.md R31). -/
theorem crcInitValue_xor_crcXorOut : crcInitValue ^^^ crcXorOut = 0x00000000#32 := by decide

/-- A read of `DFL_OUT_DATA` outside `DONE` returns EMPTY (42_register_access.md R180). -/
theorem rdDflOutData_returns_empty {s : State} (hp : s.phase ≠ .done) :
    Returns .rdDflOutData s 0x00000100#32 := by
  obtain ⟨-, hdone, -⟩ | ⟨-, hread⟩ := readOut_cases s
  · exact absurd hdone hp
  · exact congrArg Host.Outcome.next hread

/-- The state after power-on is one a reset leaves. -/
theorem reset_eq_resetBlock : State.reset = resetBlock State.reset := rfl

/-! ## The obligations -/

/-- Settles O52: each effect of an instruction and the reset input keep the invariant. -/
theorem everyStepKeepsTheInvariant : Obligations.EveryStepKeepsTheInvariant := by
  intro s t h hs
  obtain ⟨-, rfl⟩ | ⟨a, -, rfl⟩ | ⟨i, -, he⟩ := step_next_cases hs
  · exact h
  · exact inv_driveReset (inv_popEvent h) a
  · exact inv_exec (inv_popEvent h) he

/-- Settles O7: a write to `CMD` means its command, and every command completes. -/
theorem cmdWriteExecutesTheCommand : Obligations.CmdWriteExecutesTheCommand := by
  refine ⟨fun w s => ?_, fun s => rfl⟩
  obtain ⟨t, ht⟩ := exec_command_completes (decodeCommand_isCommand w) s
  exact ⟨t, (execWrCmd_eq w s).trans ht, ht⟩

/-- Settles O17: of the instructions only `WR STATUS` clears error bits, and of the reset events only the
release of an asserted reset. -/
theorem errorBitsFallOnlyByAcknowledgementOrReset : Obligations.ErrorBitsFallOnlyByAcknowledgementOrReset := by
  intro s t j hs hset hclear
  obtain ⟨-, rfl⟩ | ⟨a, hf, rfl⟩ | ⟨i, hf, he⟩ := step_next_cases hs
  · simp [hset] at hclear
  · obtain ⟨-, hd⟩ | ⟨rfl, hr, -⟩ | ⟨-, -, hd⟩ := driveReset_cases a (popEvent s)
    · simp [hd, hset] at hclear
    · exact .inr ⟨hf, hr⟩
    · simp [hd, hset] at hclear
  · obtain ⟨v, rfl, herr⟩ | ⟨e, herr⟩ := exec_err_cases he
    · rw [herr] at hclear
      exact .inl ⟨v, hf, getLsbD_of_acknowledged hset hclear⟩
    · simp [herr, hset] at hclear

/-- Settles O50: of the instructions only `WR OPND` changes `OPND`, none changes the parameters, and of the
reset events only the release of an asserted reset changes `OPND`. -/
theorem opndAndParametersChangeOnlyAsStated : Obligations.OpndAndParametersChangeOnlyAsStated := by
  intro s t hs
  obtain ⟨-, rfl⟩ | ⟨a, hf, rfl⟩ | ⟨i, hf, he⟩ := step_next_cases hs
  · exact ⟨rfl, fun hne => absurd rfl hne⟩
  · obtain ⟨-, hd⟩ | ⟨rfl, hr, hd⟩ | ⟨-, -, hd⟩ := driveReset_cases a (popEvent s) <;> rw [hd]
    · exact ⟨rfl, fun hne => absurd rfl hne⟩
    · exact ⟨rfl, fun _ => .inr ⟨hf, hr, rfl⟩⟩
    · exact ⟨rfl, fun hne => absurd rfl hne⟩
  · refine ⟨exec_cfg (s := popEvent s) he, fun hne => .inl ?_⟩
    obtain hsame | rfl := exec_opnd_cases he
    · exact absurd hsame hne
    · exact hf

/-- Settles O12: both states are ones a reset leaves, and there every field, and so every read, is given by
computation. -/
theorem releaseOfResetLeavesTheResetState : Obligations.ReleaseOfResetLeavesTheResetState := by
  intro s h
  obtain ⟨u, rfl⟩ : ∃ u, s = resetBlock u := by
    obtain rfl | ⟨s0, rest, hr, hp, hs⟩ := h
    · exact ⟨_, reset_eq_resetBlock⟩
    · rw [step_release hr hp] at hs
      cases hs
      exact ⟨_, rfl⟩
  have hstatus : Returns .rdStatus (resetBlock u) 0x00000000#32 := by
    rw [← resetBlock_status u]; rfl
  have hcrcOut : Returns .rdCrcOut (resetBlock u) 0x00000000#32 := by
    rw [← crcInitValue_xor_crcXorOut]; rfl
  exact ⟨⟨rfl, rfl, rfl, rfl, rfl, rfl, rfl, rfl, rfl, rfl, rfl, rfl⟩,
    rfl, hstatus, rfl, rfl, rfl, hcrcOut, rfl, rfl, rfl, rfl, rfl,
    rdDflOutData_returns_empty nofun, rfl, rfl, rfl⟩

/-- Settles O51: the state after power-on is one a reset leaves, with the default parameters. -/
theorem resetStateMeetsTheInvariant : Obligations.ResetStateMeetsTheInvariant :=
  inv_resetBlock (s := State.reset) (by decide)

end Sys2Proof.Machine

/-! The statements of 20_memory.md: the port takes the oldest access and performs it as the instruction its key
decodes to (R50, R79), an access it cannot express has no step (R51), every instruction completes (R202), and
every read but that of `DFL_OUT_DATA` is idempotent (R58). -/

namespace Sys2Proof.Machine

/-! ## The port, one event at a time -/

section Port

variable {s : State} {e : Event} {rest : List Event} {a : Word} {n : Nat} {r : Refusal} {i : Instr}

theorem fetch_of_pending (hp : s.pending = e :: rest) : fetch s = requestOf s e := by
  simp only [fetch, hp]

theorem popEvent_of_pending (hp : s.pending = e :: rest) : popEvent s = { s with pending := rest } := by
  simp only [popEvent, hp, List.tail_cons]

theorem step_of_fetch_run (hf : fetch s = .run i) : step s = exec i (popEvent s) := by
  simp only [step, hf]

theorem step_of_fetch_refuse (hf : fetch s = .refuse r) : step s = .refused r := by
  simp only [step, hf]

theorem requestOf_read_accepted (h : refusalOf s a n = none) :
    requestOf s (.read a n) = .run (decode (.read (wordIndex a))) := by
  simp only [requestOf, h]

theorem requestOf_write_accepted (h : refusalOf s a n = none) (v : Word) :
    requestOf s (.write a n v) = .run (decode (.write (wordIndex a) v)) := by
  simp only [requestOf, h]

/-- The port judges a read and a write of the same address and width alike (20_memory.md R51). -/
theorem requestOf_access_refused {v : Word} (he : e = .read a n ∨ e = .write a n v)
    (h : refusalOf s a n = some r) : requestOf s e = .refuse r := by
  obtain rfl | rfl := he <;> simp only [requestOf, h]

/-- A pending event that is an instruction: the step executes it with the event taken off the port. -/
theorem step_of_requestOf_run (hp : s.pending = e :: rest) (h : requestOf s e = .run i) :
    step s = exec i { s with pending := rest } := by
  rw [step_of_fetch_run ((fetch_of_pending hp).trans h), popEvent_of_pending hp]

theorem step_of_requestOf_refuse (hp : s.pending = e :: rest) (h : requestOf s e = .refuse r) :
    step s = .refused r :=
  step_of_fetch_refuse ((fetch_of_pending hp).trans h)

end Port

/-! ## Why the port refuses an access (20_memory.md R51, R56) -/

/-- `BASE` is a multiple of 256, so its bits [31:8] are the window (00_scope.md R7). -/
@[simp] theorem base_window (c : Config) : c.base.extractLsb' 8 24 = c.window :=
  BitVec.extractLsb'_append_eq_left

section Refusals

variable {s : State} {a : Word} (hr : s.inReset = false)

include hr

theorem refusalOf_not_word {n : Nat} (hn : n ≠ 4) : refusalOf s a n = some .notWordAccess := by
  simp [refusalOf, hr, hn]

theorem refusalOf_misaligned (ha : a.extractLsb' 0 2 ≠ 0#2) : refusalOf s a 4 = some .misalignedAccess := by
  simp [refusalOf, hr, ha]

theorem refusalOf_out_of_window (ha : a.extractLsb' 0 2 = 0#2) (hw : a.extractLsb' 8 24 ≠ s.cfg.window) :
    refusalOf s a 4 = some .outOfWindow := by
  simp [refusalOf, hr, ha, hw]

end Refusals

/-! ## Every read but that of `DFL_OUT_DATA` -/

/-- Such a read answers a value of the block's registers, one that does not depend on what was read before. -/
theorem decodeRead_answers {idx : BitVec 6} (h : idx ≠ 0x0B#6) :
    ∃ value : State → Word, (∀ s, exec (decodeRead idx) s = .next (answer (value s) s)) ∧
      ∀ v s, value (answer v s) = value s := by
  unfold decodeRead
  split
  case h_12 hidx => exact absurd (BitVec.eq_of_toNat_eq hidx) h
  case h_17 => split <;> exact ⟨_, fun _ => rfl, fun _ _ => rfl⟩
  all_goals exact ⟨_, fun _ => rfl, fun _ _ => rfl⟩

/-! ## The obligations -/

/-- Settles O19: a command completes, so a write to `CMD` does, and every other access has one next state. -/
theorem everyInstructionCompletes : Obligations.EveryInstructionCompletes := by
  intro i s
  by_cases hc : i.isCommand = true
  · exact exec_command_completes hc s
  cases i with
  | wrCmd w =>
    obtain ⟨t, ht⟩ := exec_command_completes (decodeCommand_isCommand w) s
    exact ⟨t, (execWrCmd_eq w s).trans ht⟩
  | nop | crcInit | crcByte | crcWord | dflStart | dflByte | dflWord | dflFinish | dflAbort | illegal04
  | illegal08 | illegal15 | illegal16 | illegal18 | illegal20 | illegal40 | illegal80 => exact absurd rfl hc
  | _ => exact ⟨_, rfl⟩

/-- Settles O49: the value answered does not depend on the values returned before, so the second read
answers it again. -/
theorem readsButOutputDataAreIdempotent : Obligations.ReadsButOutputDataAreIdempotent := by
  intro idx s h
  obtain ⟨value, hread, hvalue⟩ := decodeRead_answers h
  refine ⟨value s, hread s, ?_⟩
  have hagain := hread (answer (value s) s)
  rw [hvalue] at hagain
  exact hagain

/-- Settles O8: the port accepts a word access at a register's address, and its key is the word index. -/
theorem stepPerformsTheOldestAccess : Obligations.StepPerformsTheOldestAccess := by
  constructor
  · intro s idx rest hr hp
    rw [step_of_requestOf_run hp (requestOf_read_accepted (refusalOf_busAddr s idx hr)), wordIndex_busAddr]
  · intro s idx v rest hr hp
    rw [step_of_requestOf_run hp (requestOf_write_accepted (refusalOf_busAddr s idx hr) v), wordIndex_busAddr]

/-- Settles O10: the port refuses the access, read or write, by the first of its conditions that fails. -/
theorem accessesThePortCannotExpressHaveNoStep : Obligations.AccessesThePortCannotExpressHaveNoStep := by
  intro s e rest a n v hr hp he
  have hrefuse {r : Refusal} (h : refusalOf s a n = some r) : step s = .refused r :=
    step_of_requestOf_refuse hp (requestOf_access_refused he h)
  refine ⟨fun hn => hrefuse (refusalOf_not_word hr hn), ?_, ?_⟩ <;> rintro rfl ha
  · exact hrefuse (refusalOf_misaligned hr ha)
  · intro hw
    rw [base_window] at hw
    exact hrefuse (refusalOf_out_of_window hr ha hw)

end Sys2Proof.Machine

/-! The statements of 30_encoding.md about codes: decoding and encoding are inverse to each other (R71, R73, R75,
R79). From an instruction the formats' fields are read back; from a code the row its opcode selects fixes the
upper bits (`opcodeOf_fixes`) and the fields are the rest. -/

namespace Sys2Proof

/-! ## Decoding the words of each format (30_encoding.md R73, R75) -/

@[simp] theorem decodeCommand_wordN_nop (rsv : BitVec 24) : decodeCommand (wordN 0x00#8 rsv) = .nop rsv :=
  onCommand_nop _ rsv

@[simp] theorem decodeCommand_wordN_crcInit (rsv : BitVec 24) :
    decodeCommand (wordN 0x01#8 rsv) = .crcInit rsv := onCommand_crcInit _ rsv

@[simp] theorem decodeCommand_wordB_crcByte (rsv : BitVec 16) (b : Byte) :
    decodeCommand (wordB 0x02#8 rsv b) = .crcByte rsv b := onCommand_crcByte _ rsv b

@[simp] theorem decodeCommand_wordW_crcWord (rsv : BitVec 22) (k : BitVec 2) :
    decodeCommand (wordW 0x03#8 rsv k) = .crcWord rsv k := onCommand_crcWord _ rsv k

@[simp] theorem decodeCommand_wordL_dflStart (rsv : BitVec 20) (lvl : BitVec 4) :
    decodeCommand (wordL 0x10#8 rsv lvl) = .dflStart rsv lvl := onCommand_dflStart _ rsv lvl

@[simp] theorem decodeCommand_wordB_dflByte (rsv : BitVec 16) (b : Byte) :
    decodeCommand (wordB 0x11#8 rsv b) = .dflByte rsv b := onCommand_dflByte _ rsv b

@[simp] theorem decodeCommand_wordW_dflWord (rsv : BitVec 22) (k : BitVec 2) :
    decodeCommand (wordW 0x12#8 rsv k) = .dflWord rsv k := onCommand_dflWord _ rsv k

@[simp] theorem decodeCommand_wordN_dflFinish (rsv : BitVec 24) :
    decodeCommand (wordN 0x13#8 rsv) = .dflFinish rsv := onCommand_dflFinish _ rsv

@[simp] theorem decodeCommand_wordN_dflAbort (rsv : BitVec 24) :
    decodeCommand (wordN 0x14#8 rsv) = .dflAbort rsv := onCommand_dflAbort _ rsv

/-! ## Decoding the reserved offsets (30_encoding.md R79) -/

/-- Word indices from 16 on are the reserved offsets 0x40 to 0xFC, in two classes. -/
theorem decodeRead_of_ge {idx : BitVec 6} (h : 16 ≤ idx.toNat) :
    decodeRead idx = if idx.extractLsb' 5 1 = 1#1 then .rdReserved80 (idx.extractLsb' 0 5)
      else .rdReserved40 (idx.extractLsb' 0 4) := by
  unfold decodeRead
  split
  case h_17 => rfl
  all_goals omega

theorem decodeWrite_of_ge {idx : BitVec 6} (h : 16 ≤ idx.toNat) (v : Word) :
    decodeWrite idx v = if idx.extractLsb' 5 1 = 1#1 then .wrReserved80 (idx.extractLsb' 0 5) v
      else .wrReserved40 (idx.extractLsb' 0 4) v := by
  unfold decodeWrite
  split
  case h_17 => rfl
  all_goals omega

theorem reserved40_toNat_ge : ∀ i : BitVec 4, 16 ≤ (0b01#2 ++ i).toNat := by decide
theorem reserved80_toNat_ge : ∀ i : BitVec 5, 16 ≤ (0b1#1 ++ i).toNat := by decide
theorem reserved40_bit5 : ∀ i : BitVec 4, (0b01#2 ++ i).extractLsb' 5 1 ≠ 1#1 := by decide

/-! ## Decoding an encoding -/

/-- No field of an instruction is lost in its encoding. -/
theorem decode_encode (i : Instr) : decode (encode i) = i := by
  cases i with
  | nop rsv => exact decodeCommand_wordN_nop rsv
  | crcInit rsv => exact decodeCommand_wordN_crcInit rsv
  | crcByte rsv b => exact decodeCommand_wordB_crcByte rsv b
  | crcWord rsv k => exact decodeCommand_wordW_crcWord rsv k
  | dflStart rsv lvl => exact decodeCommand_wordL_dflStart rsv lvl
  | dflByte rsv b => exact decodeCommand_wordB_dflByte rsv b
  | dflWord rsv k => exact decodeCommand_wordW_dflWord rsv k
  | dflFinish rsv => exact decodeCommand_wordN_dflFinish rsv
  | dflAbort rsv => exact decodeCommand_wordN_dflAbort rsv
  | illegal04 rest => exact onCommand_illegal04 _ rest
  | illegal08 rest => exact onCommand_illegal08 _ rest
  | illegal15 rest => exact onCommand_illegal15 _ rest
  | illegal16 rest => exact onCommand_illegal16 _ rest
  | illegal18 rest => exact onCommand_illegal18 _ rest
  | illegal20 rest => exact onCommand_illegal20 _ rest
  | illegal40 rest => exact onCommand_illegal40 _ rest
  | illegal80 rest => exact onCommand_illegal80 _ rest
  | rdReserved40 i =>
    refine (decodeRead_of_ge (reserved40_toNat_ge i)).trans ?_
    rw [if_neg (reserved40_bit5 i), append_lower]
  | rdReserved80 i =>
    refine (decodeRead_of_ge (reserved80_toNat_ge i)).trans ?_
    rw [if_pos (append_upper _ _), append_lower]
  | wrReserved40 i v =>
    refine (decodeWrite_of_ge (reserved40_toNat_ge i) v).trans ?_
    rw [if_neg (reserved40_bit5 i), append_lower]
  | wrReserved80 i v =>
    refine (decodeWrite_of_ge (reserved80_toNat_ge i) v).trans ?_
    rw [if_pos (append_upper _ _), append_lower]
  | _ => rfl

/-- Settles O1: each constructor's fields are read back from its format. -/
theorem decodeOfEncodeIsTheInstruction : Obligations.DecodeOfEncodeIsTheInstruction :=
  decode_encode

/-! ## Encoding a decoded code -/

/-- A word is its upper bits, whatever they are known to be, then its lower bits. -/
theorem append_of_upper {m n : Nat} {w : BitVec (m + n)} {a : BitVec m} (h : w.extractLsb' n m = a) :
    a ++ w.extractLsb' 0 n = w := by
  rw [← h]
  exact BitVec.extractLsb'_append_extractLsb'

/-- The same of a word in three parts. -/
theorem append_append_of_upper {k m n : Nat} {w : BitVec (k + m + n)} {a : BitVec k}
    (h : w.extractLsb' (n + m) k = a) : a ++ w.extractLsb' n m ++ w.extractLsb' 0 n = w := by
  rw [← h, BitVec.extractLsb'_append_extractLsb'_eq_extractLsb' rfl]
  exact append_of_upper rfl

theorem wordN_of_op {w : Word} {op : BitVec 8} (h : w.extractLsb' 24 8 = op) :
    wordN op (w.extractLsb' 0 24) = w := append_of_upper h

theorem wordB_of_op {w : Word} {op : BitVec 8} (h : w.extractLsb' 24 8 = op) :
    wordB op (w.extractLsb' 8 16) (w.extractLsb' 0 8) = w := append_append_of_upper h

theorem wordW_of_op {w : Word} {op : BitVec 8} (h : w.extractLsb' 24 8 = op) :
    wordW op (w.extractLsb' 2 22) (w.extractLsb' 0 2) = w := append_append_of_upper h

theorem wordL_of_op {w : Word} {op : BitVec 8} (h : w.extractLsb' 24 8 = op) :
    wordL op (w.extractLsb' 4 20) (w.extractLsb' 0 4) = w := append_append_of_upper h

/-- The bits of `OP` a row of the opcode map fixes, all eight or an illegal class's upper ones (30_encoding.md
R73, R75). -/
def Opcode.fixes (op : BitVec 8) : Opcode → Bool
  | .nop => op == 0x00#8
  | .crcInit => op == 0x01#8
  | .crcByte => op == 0x02#8
  | .crcWord => op == 0x03#8
  | .dflStart => op == 0x10#8
  | .dflByte => op == 0x11#8
  | .dflWord => op == 0x12#8
  | .dflFinish => op == 0x13#8
  | .dflAbort => op == 0x14#8
  | .illegal04 => op.extractLsb' 2 6 == 0b000001#6
  | .illegal08 => op.extractLsb' 3 5 == 0b00001#5
  | .illegal15 => op == 0x15#8
  | .illegal16 => op.extractLsb' 1 7 == 0b0001011#7
  | .illegal18 => op.extractLsb' 3 5 == 0b00011#5
  | .illegal20 => op.extractLsb' 5 3 == 0b001#3
  | .illegal40 => op.extractLsb' 6 2 == 0b01#2
  | .illegal80 => op.extractLsb' 7 1 == 0b1#1

/-- The row `OP` selects is one whose fixed bits it has. -/
theorem opcodeOf_fixes : ∀ op : BitVec 8, (opcodeOf op).fixes op = true := by decide

/-- A word in an illegal class: the upper bits of its opcode are the class's. -/
theorem append_of_op_upper {w : Word} {k m n : Nat} {a : BitVec m} (hk : k + m ≤ 8) (hn : 24 + k = n)
    (h : ((w.extractLsb' 24 8).extractLsb' k m == a) = true) : w.extractLsb' n m = a := by
  subst hn
  exact (op_upper w k m hk).symm.trans (eq_of_beq h)

/-- Every command word is the encoding of the command it decodes to. -/
theorem encode_decodeCommand (w : Word) : encode (decodeCommand w) = .command w := by
  have h := opcodeOf_fixes (w.extractLsb' 24 8)
  simp only [decodeCommand, onCommand]
  cases hop : opcodeOf (w.extractLsb' 24 8) <;> rw [hop] at h
  case nop | crcInit | dflFinish | dflAbort => exact congrArg Code.command (wordN_of_op (eq_of_beq h))
  case crcByte | dflByte => exact congrArg Code.command (wordB_of_op (eq_of_beq h))
  case crcWord | dflWord => exact congrArg Code.command (wordW_of_op (eq_of_beq h))
  case dflStart => exact congrArg Code.command (wordL_of_op (eq_of_beq h))
  case illegal15 => exact congrArg Code.command (append_of_upper (eq_of_beq h))
  all_goals exact congrArg Code.command (append_of_upper (append_of_op_upper (by decide) rfl h))

theorem encode_decodeRead : ∀ idx : BitVec 6, encode (decodeRead idx) = .read idx := by decide

theorem reserved40_append : ∀ idx : BitVec 6, 16 ≤ idx.toNat → idx.extractLsb' 5 1 ≠ 1#1 →
    0b01#2 ++ idx.extractLsb' 0 4 = idx := by decide

theorem encode_decodeWrite (idx : BitVec 6) (v : Word) : encode (decodeWrite idx v) = .write idx v := by
  unfold decodeWrite
  split
  case h_17 =>
    split
    · exact congrArg (Code.write · v) (append_of_upper ‹_›)
    · have hge : 16 ≤ idx.toNat := by simp only [imp_false] at *; omega
      exact congrArg (Code.write · v) (reserved40_append idx hge ‹_›)
  all_goals exact congrArg (Code.write · v) (BitVec.eq_of_toNat_eq (Eq.symm ‹_›))

/-- Settles O2: the fields a code's decoding names, put together, are the code. -/
theorem encodeOfDecodeIsTheCode : Obligations.EncodeOfDecodeIsTheCode := by
  intro c
  cases c with
  | command w => exact encode_decodeCommand w
  | read idx => exact encode_decodeRead idx
  | write idx v => exact encode_decodeWrite idx v

/-- Settles O3: each word's opcode selects its row, and the fields are those written out. -/
theorem wordsOfTheSpecDecodeToTheirInstructions : Obligations.WordsOfTheSpecDecodeToTheirInstructions := by
  unfold Obligations.WordsOfTheSpecDecodeToTheirInstructions
  decide

end Sys2Proof

/-! The statements of 30_encoding.md about classes of command words: which are illegal (R75), which are legal
(R73), what an assembler emits (R81), and what the block does with an illegal word (R75) and a malformed one (R76).
A word's decoding encodes to it, so each is a case analysis over the instruction. -/

namespace Sys2Proof

open Sys2Proof.Machine Sys2Proof.Safety

/-! ## The illegal words (30_encoding.md R75) -/

/-- The row of the opcode map is one of the nine assigned opcodes. -/
def Opcode.assigned : Opcode → Bool
  | .illegal04 | .illegal08 | .illegal15 | .illegal16 => false
  | .illegal18 | .illegal20 | .illegal40 | .illegal80 => false
  | _ => true

theorem decodeCommand_opcodeAssigned (w : Word) :
    (decodeCommand w).opcodeAssigned = (opcodeOf (opcode w)).assigned := by
  simp only [decodeCommand, onCommand, opcode]
  cases opcodeOf (w.extractLsb' 24 8) <;> rfl

theorem opcodeOf_unassigned_iff : ∀ op : BitVec 8, (opcodeOf op).assigned = false ↔
    (0x04 ≤ op.toNat ∧ op.toNat ≤ 0x0F) ∨ 0x15 ≤ op.toNat := by decide

/-- Settles O4: whether a word is illegal is decided by its opcode, for each of the 256. -/
theorem unassignedOpcodesAreTheIllegalWords : Obligations.UnassignedOpcodesAreTheIllegalWords := by
  intro w
  rw [decodeCommand_opcodeAssigned]
  exact opcodeOf_unassigned_iff (opcode w)

/-! ## The legal words (30_encoding.md R73) -/

theorem toNat_append_eq_add {m n : Nat} (a : BitVec m) (b : BitVec n) :
    (a ++ b).toNat = a.toNat * 2 ^ n + b.toNat := by
  rw [BitVec.toNat_append, ← Nat.shiftLeft_add_eq_or_of_lt b.isLt, Nat.shiftLeft_eq]

theorem wordN_toNat (op : BitVec 8) (rsv : BitVec 24) :
    (wordN op rsv).toNat = op.toNat * 2 ^ 24 + rsv.toNat := toNat_append_eq_add op rsv

theorem wordB_toNat (op : BitVec 8) (rsv : BitVec 16) (b : Byte) :
    (wordB op rsv b).toNat = (op.toNat * 2 ^ 16 + rsv.toNat) * 2 ^ 8 + b.toNat :=
  (toNat_append_eq_add (op ++ rsv) b).trans (by rw [toNat_append_eq_add])

theorem wordW_toNat (op : BitVec 8) (rsv : BitVec 22) (k : BitVec 2) :
    (wordW op rsv k).toNat = (op.toNat * 2 ^ 22 + rsv.toNat) * 2 ^ 2 + k.toNat :=
  (toNat_append_eq_add (op ++ rsv) k).trans (by rw [toNat_append_eq_add])

theorem wordL_toNat (op : BitVec 8) (rsv : BitVec 20) (lvl : BitVec 4) :
    (wordL op rsv lvl).toNat = (op.toNat * 2 ^ 20 + rsv.toNat) * 2 ^ 4 + lvl.toNat :=
  (toNat_append_eq_add (op ++ rsv) lvl).trans (by rw [toNat_append_eq_add])

theorem opcode_toNat (w : Word) : (opcode w).toNat = w.toNat / 2 ^ 24 := by
  have := w.isLt
  simp only [opcode, BitVec.extractLsb'_toNat, Nat.shiftRight_eq_div_pow]
  omega

theorem beq_zero_iff_toNat {n : Nat} (a : BitVec n) : (a == 0) = true ↔ a.toNat = 0 := by
  simp [BitVec.toNat_eq]

/-- An ill-formed command is one of the illegal classes, or has a nonzero reserved bit, or a level above 9. -/
theorem wellFormed_iff (i : Instr) :
    i.wellFormed = true ↔ i.opcodeAssigned = true ∧ i.reservedZero = true ∧ i.levelLegal = true := by
  simp [Instr.wellFormed, and_assoc]

/-- Settles O5: an unassigned opcode is outside every range; under an assigned one the word is its format's,
whose value is that of its fields. -/
theorem wellFormedCommandsAreTheLegalWords : Obligations.WellFormedCommandsAreTheLegalWords := by
  intro w
  rw [wellFormed_iff]
  cases hA : (decodeCommand w).opcodeAssigned with
  | false =>
    rw [unassignedOpcodesAreTheIllegalWords, opcode_toNat] at hA
    simp only [Bool.false_eq_true, false_and, false_iff]
    omega
  | true =>
    have h := encode_decodeCommand w
    generalize decodeCommand w = i at hA h
    cases i with
    | nop rsv | crcInit rsv | dflFinish rsv | dflAbort rsv =>
      cases h
      have := rsv.isLt
      simp only [Instr.reservedZero, Instr.levelLegal, beq_zero_iff_toNat, wordN_toNat, BitVec.toNat_ofNat, true_and, and_true]
      omega
    | crcByte rsv b | dflByte rsv b =>
      cases h
      have := rsv.isLt
      have := b.isLt
      simp only [Instr.reservedZero, Instr.levelLegal, beq_zero_iff_toNat, wordB_toNat, BitVec.toNat_ofNat, true_and, and_true]
      omega
    | crcWord rsv k | dflWord rsv k =>
      cases h
      have := rsv.isLt
      have := k.isLt
      simp only [Instr.reservedZero, Instr.levelLegal, beq_zero_iff_toNat, wordW_toNat, BitVec.toNat_ofNat, true_and, and_true]
      omega
    | dflStart rsv lvl =>
      cases h
      have := rsv.isLt
      have := lvl.isLt
      simp only [Instr.reservedZero, Instr.levelLegal, beq_zero_iff_toNat, wordL_toNat, BitVec.toNat_ofNat, decide_eq_true_eq, true_and]
      omega
    | illegal04 | illegal08 | illegal15 | illegal16 | illegal18 | illegal20 | illegal40 | illegal80 => cases hA
    | _ => cases h

/-! ## The assembler (30_encoding.md R81) -/

/-- Settles O6: the operand's range decides whether there is a word, and its decoding reads the operand back. -/
theorem assemblerEmitsTheCommandOrRefuses : Obligations.AssemblerEmitsTheCommandOrRefuses := by
  refine ⟨fun b => ?_, fun k => ?_, fun l hl => ?_, ?_, ?_, ?_, ?_, fun n hn => ?_, fun n hn => ?_, fun n hn => ?_⟩
  · have hb : b.toNat ≤ 255 := Nat.le_of_lt_succ b.isLt
    simp [assemble, hb]
  · have hk : 1 ≤ k.toNat + 1 ∧ k.toNat + 1 ≤ 4 := wordCount_le k
    simp [assemble, hk.2]
  · simp [assemble, hl]
  · exact congrArg some (decodeCommand_wordN_nop 0)
  · exact congrArg some (decodeCommand_wordN_crcInit 0)
  · exact congrArg some (decodeCommand_wordN_dflFinish 0)
  · exact congrArg some (decodeCommand_wordN_dflAbort 0)
  · have hb : ¬ n ≤ 255 := by omega
    exact ⟨if_neg hb, if_neg hb⟩
  · have hk : ¬ (1 ≤ n ∧ n ≤ 4) := by omega
    exact ⟨if_neg hk, if_neg hk⟩
  · have hl : ¬ n ≤ 9 := by omega
    exact if_neg hl

/-! ## What the block does with a word it does not execute (30_encoding.md R75, R76) -/

/-- The error bit of a cause is `STATUS[7 + code]` (60_exceptions.md R203). -/
theorem recordError_eq_raised (c : Cause) (w : Word) (s : State) : recordError c w s = raised c w s := by
  cases c <;> rfl

/-- An unassigned opcode records `ILLEGAL` with the instruction's own word. -/
theorem exec_of_unassigned {i : Instr} {w : Word} (hA : i.opcodeAssigned = false) (h : encode i = .command w)
    (s : State) : exec i s = .next (raised .illegal w s) := by
  rw [← recordError_eq_raised]
  cases i with
  | illegal04 | illegal08 | illegal15 | illegal16 | illegal18 | illegal20 | illegal40 | illegal80 =>
    cases h
    rfl
  | _ => cases hA

/-- Settles O13: such a word decodes to an illegal class, whose meaning records it. -/
theorem illegalWordRecordsIllegalAndNothingElse : Obligations.IllegalWordRecordsIllegalAndNothingElse := by
  refine ⟨fun w s hop => ?_, ?_, ?_, ?_, ?_, ?_, ?_, ?_, ?_⟩
  · have hA : (decodeCommand w).opcodeAssigned = false := (unassignedOpcodesAreTheIllegalWords w).mpr hop
    exact (execWrCmd_eq w s).trans (exec_of_unassigned hA (encode_decodeCommand w) s)
  all_goals exact fun r s => exec_of_unassigned rfl rfl s

/-- A nonzero reserved bit, or a level above 9, records `OPERAND` with the instruction's own word, whatever the
state. -/
theorem exec_of_malformed {i : Instr} {w : Word} (h : encode i = .command w)
    (hbad : i.reservedZero = false ∨ i.levelLegal = false) (s : State) :
    exec i s = .next (raised .operand w s) := by
  rw [← recordError_eq_raised]
  cases i with
  | nop rsv | crcInit rsv | crcByte rsv | crcWord rsv | dflByte rsv | dflWord rsv | dflFinish rsv | dflAbort rsv =>
    cases h
    have hrsv : rsv ≠ 0 := by simpa [Instr.reservedZero, Instr.levelLegal] using hbad
    exact if_pos hrsv
  | dflStart rsv lvl =>
    cases h
    by_cases hrsv : rsv = 0#20
    · have hlvl : levelOf lvl = none := by
        simpa [Instr.reservedZero, Instr.levelLegal, hrsv, levelOf_eq_none] using hbad
      simp [exec, execDflStart, hrsv, hlvl, raiseError]
    · exact if_pos hrsv
  | illegal04 | illegal08 | illegal15 | illegal16 | illegal18 | illegal20 | illegal40 | illegal80 =>
    cases h
    simp [Instr.reservedZero, Instr.levelLegal] at hbad
  | _ => cases h

/-! ## The reserved bits of a format's words (30_encoding.md R71) -/

theorem reservedZero_wordN {op : BitVec 8} (h : op ∈ [0x00#8, 0x01#8, 0x13#8, 0x14#8]) (rsv : BitVec 24) :
    (decodeCommand (wordN op rsv)).reservedZero = (rsv == 0) := by
  simp only [List.mem_cons, List.not_mem_nil, or_false] at h
  obtain rfl | rfl | rfl | rfl := h <;> simp [Instr.reservedZero]

theorem reservedZero_wordB {op : BitVec 8} (h : op ∈ [0x02#8, 0x11#8]) (rsv : BitVec 16) (b : Byte) :
    (decodeCommand (wordB op rsv b)).reservedZero = (rsv == 0) := by
  simp only [List.mem_cons, List.not_mem_nil, or_false] at h
  obtain rfl | rfl := h <;> simp [Instr.reservedZero]

theorem reservedZero_wordW {op : BitVec 8} (h : op ∈ [0x03#8, 0x12#8]) (rsv : BitVec 22) (k : BitVec 2) :
    (decodeCommand (wordW op rsv k)).reservedZero = (rsv == 0) := by
  simp only [List.mem_cons, List.not_mem_nil, or_false] at h
  obtain rfl | rfl := h <;> simp [Instr.reservedZero]

/-- Settles O14: the word's opcode selects its format, and the format's fields are those of the word. -/
theorem malformedWordRecordsOperandAndNothingElse : Obligations.MalformedWordRecordsOperandAndNothingElse := by
  intro w s h
  refine (execWrCmd_eq w s).trans (exec_of_malformed (encode_decodeCommand w) ?_ s)
  obtain ⟨hop, hrsv⟩ | ⟨hop, hrsv⟩ | ⟨hop, hrsv⟩ | ⟨hop, hbad⟩ := h
  · rw [← wordN_of_op (w := w) rfl]
    exact .inl ((reservedZero_wordN hop _).trans (beq_false_of_ne hrsv))
  · rw [← wordB_of_op (w := w) rfl]
    exact .inl ((reservedZero_wordB hop _ _).trans (beq_false_of_ne hrsv))
  · rw [← wordW_of_op (w := w) rfl]
    exact .inl ((reservedZero_wordW hop _ _).trans (beq_false_of_ne hrsv))
  · rw [← wordL_of_op hop, decodeCommand_wordL_dflStart]
    exact hbad.imp beq_false_of_ne fun hlvl => decide_eq_false (by omega)

end Sys2Proof

/-! The statements of 30_encoding.md about what a host issues: an encoded instruction at the port is the one the
next step runs (R70, R79), a list of them runs as the list of their meanings, so that `CHECKSUM` returns the
checksum (R83), and a line of a host program is its access (R82). -/

namespace Sys2Proof.Machine

open Sys2Proof.Safety

/-! ## An encoded instruction at the port -/

/-- The event of a code is performed in one step, as the instruction the code decodes to (30_encoding.md R70,
R79). -/
theorem step_eventOf {s : State} {c : Code} {rest : List Event} (hr : s.inReset = false)
    (hp : s.pending = eventOf s.cfg c :: rest) : step s = exec (decode c) { s with pending := rest } := by
  obtain ⟨hread, hwrite⟩ := stepPerformsTheOldestAccess
  cases c with
  | command w => exact (hwrite s _ w rest hr hp).trans (execWrCmd_eq w _)
  | read idx => exact hread s idx rest hr hp
  | write idx v => exact hwrite s idx v rest hr hp

/-- Settles O9: the code offered decodes to the instruction it encodes. -/
theorem offeredInstructionIsTheOneThatRuns : Obligations.OfferedInstructionIsTheOneThatRuns := by
  intro i s
  have h : step (offer (encode i) s) = exec (decode (encode i)) { s with inReset := false } :=
    step_eventOf (s := offer (encode i) s) rfl rfl
  rwa [decode_encode] at h

/-! ## The lines of a host program (30_encoding.md R82) -/

/-- An issued access is its instruction: the event added to the port is the one taken off it. -/
theorem issue_eq_exec {s : State} (hr : s.inReset = false) (c : Code) : issue c s = exec (decode c) s :=
  step_eventOf (s := { s with pending := eventOf s.cfg c :: s.pending }) hr rfl

/-- An access of a host program completes and moves the host to its next line. -/
theorem afterAccess_completes {m : HostMachine} (hr : m.block.inReset = false) (c : Code)
    (h : State → Vector Word 8) : ∃ t, exec (decode c) m.block = .next t ∧
      afterAccess c h m = .next { m with block := t, h := h t, line := m.line + 1 } := by
  obtain ⟨t, ht⟩ := everyInstructionCompletes (decode c) m.block
  exact ⟨t, ht, by simp only [afterAccess, issue_eq_exec hr, ht]⟩

/-- A read of any word index returns one value to the host, that of `DFL_OUT_DATA` included. -/
theorem exec_decodeRead_returned {idx : BitVec 6} {s t : State} (h : exec (decodeRead idx) s = .next t) :
    ∃ v, t.returned = v :: s.returned := by
  by_cases hidx : idx = 0x0B#6
  · subst hidx
    cases h
    obtain ⟨b, -, -, hread⟩ | ⟨-, hread⟩ := readOut_cases s <;> rw [hread] <;> exact ⟨_, rfl⟩
  · obtain ⟨value, hread, -⟩ := decodeRead_answers hidx
    rw [hread] at h
    cases h
    exact ⟨_, rfl⟩

/-- Settles O55: each line issues one access, and a read's value is the newest returned. -/
theorem hostProgramReadsReachTheBlock : Obligations.HostProgramReadsReachTheBlock := by
  intro m hr
  refine ⟨fun idx v => afterAccess_completes hr _ _, fun _ => rfl, fun _ => rfl,
    fun w => afterAccess_completes hr (.command w) _, fun idx r => ?_⟩
  obtain ⟨t, ht, hline⟩ := afterAccess_completes hr (.read idx)
    fun t => m.h.set r (t.returned.headD 0x00000000#32)
  obtain ⟨v, hv⟩ := exec_decodeRead_returned ht
  refine ⟨t, v, ht, hv, hline.trans ?_⟩
  rw [hv, List.headD_cons]

/-! ## A list of instructions at the port is the list of their meanings -/

/-- No command looks at the events still to come, and none changes them (assumption log 1). -/
theorem exec_command_with_pending {i : Instr} {s t : State} (hi : i.isCommand = true) (h : exec i s = .next t)
    (p : List Event) : exec i { s with pending := p } = .next { t with pending := p } := by
  cases i with
  | nop | crcInit | crcByte | crcWord | dflByte | dflWord | dflAbort =>
    simp only [exec, execNop, execCrcInit, execCrcByte, execCrcWord, execDflByte, execDflWord, execDflAbort,
      overflow, raiseError, feedAll_eq, appendAll_eq] at h ⊢
    split_ifs at h ⊢ <;> cases h <;> rfl
  | dflFinish rsv =>
    simp only [exec, execDflFinish, overflow, raiseError] at h
    split_ifs at h with hr hp hc <;> cases h
    · exact if_pos hr
    · exact (if_neg hr).trans (if_pos hp)
    · exact (if_neg hr).trans ((if_neg hp).trans (if_pos hc))
    · exact (if_neg hr).trans ((if_neg hp).trans (if_neg hc))
  | dflStart rsv lvl =>
    simp only [exec, execDflStart, raiseError] at h ⊢
    cases hl : levelOf lvl <;> simp only [hl] at h ⊢ <;> split_ifs at h ⊢ <;> cases h <;> rfl
  | illegal04 | illegal08 | illegal15 | illegal16 | illegal18 | illegal20 | illegal40 | illegal80 =>
    cases h
    rfl
  | _ => cases hi

/-- The same of every instruction. -/
theorem exec_with_pending {i : Instr} {s t : State} (h : exec i s = .next t) (p : List Event) :
    exec i { s with pending := p } = .next { t with pending := p } := by
  by_cases hc : i.isCommand = true
  · exact exec_command_with_pending hc h p
  cases i with
  | wrCmd w =>
    have h' : exec (decodeCommand w) s = .next t := (execWrCmd_eq w s).symm.trans h
    exact (execWrCmd_eq w _).trans (exec_command_with_pending (decodeCommand_isCommand w) h' p)
  | wrStatus v =>
    cases h
    simp only [exec, execWrStatus, acknowledge]
    split_ifs <;> rfl
  | rdDflOutData =>
    cases h
    simp only [exec, execRdDflOutData, readOut]
    split_ifs
    · cases s.outBuf[s.outPtr.toNat]? <;> rfl
    · rfl
  | nop | crcInit | crcByte | crcWord | dflStart | dflByte | dflWord | dflFinish | dflAbort | illegal04
  | illegal08 | illegal15 | illegal16 | illegal18 | illegal20 | illegal40 | illegal80 => exact absurd rfl hc
  | _ => cases h; rfl

theorem exec_inReset {i : Instr} {s t : State} (h : exec i s = .next t) : t.inReset = s.inReset := by
  cases exec_effect h with
  | fed d => rw [feedAll_eq]
  | appended d => rw [appendAll_eq]
  | _ => simp

theorem run_succ_of_next {M : Host.Core} {k : Nat} {s t : M.State} (h : M.step s = .next t) :
    M.run (k + 1) s = M.run k t := by
  simp only [Host.Core.run, h]

theorem execAll_cons_of_next {i : Instr} {is : List Instr} {s t : State} (h : exec i s = .next t) :
    execAll (i :: is) s = execAll is t := by
  simp only [execAll, h]

/-- A host's list of encoded instructions, run event by event, is the list of their meanings. -/
theorem run_eventsOf (cs : List Code) {s : State} {c : Config} (hr : s.inReset = false) (hc : s.cfg = c) :
    Host.Core.run core cs.length { s with pending := eventsOf c cs } =
      execAll (cs.map decode) { s with pending := [] } := by
  induction cs generalizing s with
  | nil => rfl
  | cons k cs ih =>
    subst hc
    obtain ⟨t, ht⟩ := everyInstructionCompletes (decode k) s
    have hstep : core.step { s with pending := eventsOf s.cfg (k :: cs) } =
        .next { t with pending := eventsOf s.cfg cs } :=
      (step_eventOf (s := { s with pending := eventsOf s.cfg (k :: cs) }) hr rfl).trans (exec_with_pending ht _)
    have hrun := ih ((exec_inReset ht).trans hr) (exec_cfg ht)
    have hexec := execAll_cons_of_next (is := cs.map decode) (exec_with_pending ht [])
    exact (run_succ_of_next hstep).trans (hrun.trans hexec.symm)

theorem execAll_append {is js : List Instr} {s t : State} (h : execAll is s = .next t) :
    execAll (is ++ js) s = execAll js t := by
  induction is generalizing s with
  | nil => cases h; rfl
  | cons i is ih =>
    obtain ⟨u, hu⟩ := everyInstructionCompletes i s
    rw [execAll_cons_of_next hu] at h
    rw [List.cons_append, execAll_cons_of_next hu, ih h]

/-! ## `CHECKSUM` (30_encoding.md R83) -/

/-- Four bytes as one word, most significant first, are the word's bytes (20_memory.md R54). -/
theorem be32_append (a b c d : Byte) : be32 (a ++ b ++ c ++ d) = [a, b, c, d] := by
  have ha : (a ++ b ++ c ++ d).extractLsb' 24 8 = a := by
    rw [append_above _ _ _ _ (by decide), append_above _ _ _ _ (by decide)]
    exact append_upper a b
  have hb : (a ++ b ++ c ++ d).extractLsb' 16 8 = b := by
    rw [append_above _ _ _ _ (by decide), append_above _ _ _ _ (by decide)]
    exact append_lower a b
  have hc : (a ++ b ++ c ++ d).extractLsb' 8 8 = c := by
    rw [append_above _ _ _ _ (by decide)]
    exact append_lower (a ++ b) c
  have hd : (a ++ b ++ c ++ d).extractLsb' 0 8 = d := append_lower _ d
  rw [be32, ha, hb, hc, hd]

/-- Staging four bytes and a form W command for the first k + 1 of them feeds those. -/
theorem execAll_stageWord_crcWord (a b c d : Byte) (k : BitVec 2) (s : State) :
    execAll ((stageWord 0x03#8 (a ++ b ++ c ++ d) k).map decode) s =
      .next (feedAll ([a, b, c, d].take (wordCount k)) { s with opnd := a ++ b ++ c ++ d }) := by
  have hopnd (v : Word) : decode (.write idxOpnd v) = .wrOpnd v := rfl
  have hword : decode (.command (wordW 0x03#8 0 k)) = .crcWord 0 k := decodeCommand_wordW_crcWord 0 k
  rw [← be32_append]
  simp only [stageWord, List.map_cons, List.map_nil, hopnd, hword]
  rfl

/-- `CRC.BYTES d` feeds d; of the rest it changes the staged operand only. -/
theorem execAll_pseudoCrcBytes (d : Bytes) (s : State) :
    ∃ v, execAll ((pseudoCrcBytes d).map decode) s = .next (feedAll d { s with opnd := v }) := by
  unfold pseudoCrcBytes
  fun_induction pseudoBytes 0x03#8 d generalizing s with
  | case1 a b c d t ih =>
    obtain ⟨v, hv⟩ := ih (feedAll [a, b, c, d] { s with opnd := a ++ b ++ c ++ d })
    refine ⟨v, ?_⟩
    rw [List.map_append, execAll_append (execAll_stageWord_crcWord a b c d 3#2 s)]
    exact hv
  | case2 a b c => exact ⟨_, execAll_stageWord_crcWord a b c 0#8 2#2 s⟩
  | case3 a b => exact ⟨_, execAll_stageWord_crcWord a b 0#8 0#8 1#2 s⟩
  | case4 a => exact ⟨_, execAll_stageWord_crcWord a 0#8 0#8 0#8 0#2 s⟩
  | case5 => exact ⟨s.opnd, rfl⟩

/-- `CHECKSUM d` answers the checksum of d, from any state. -/
theorem execAll_pseudoChecksum (d : Bytes) (s : State) :
    ∃ v, execAll ((pseudoChecksum d).map decode) s = .next (answer (crc32 d)
      { s with opnd := v, crcState := crcFold crcInitValue d, crcCount := BitVec.ofNat 32 d.length }) := by
  obtain ⟨v, hbytes⟩ := execAll_pseudoCrcBytes d { s with crcState := crcInitValue, crcCount := 0x00000000#32 }
  have hinit : decode (.command (wordN 0x01#8 0)) = .crcInit 0 := decodeCommand_wordN_crcInit 0
  rw [feedAll_eq] at hbytes
  refine ⟨v, ?_⟩
  rw [pseudoChecksum, List.map_cons, List.map_append, hinit]
  refine (execAll_append hbytes).trans ?_
  simp only [BitVec.zero_add]
  rfl

/-- Settles O28: the events run as the instructions of the sequence, which answer the checksum. -/
theorem checksumSequenceReturnsTheChecksum : Obligations.ChecksumSequenceReturnsTheChecksum := by
  intro s d hr
  obtain ⟨v, hrun⟩ := execAll_pseudoChecksum d { s with pending := [] }
  have hcount : BitVec.ofNat 32 d.length = BitVec.ofNat 32 (d.length % 2 ^ 32) := by
    apply BitVec.eq_of_toNat_eq; simp
  exact ⟨_, (run_eventsOf _ hr rfl).trans hrun, rfl, rfl, hcount, rfl, rfl, rfl, rfl, rfl, rfl, rfl, rfl, rfl, rfl⟩

end Sys2Proof.Machine

/-! The statements of 40_crc.md about the checksum as a function: a turn of the loop (R100) is linear over
exclusive or and loses nothing, so the table form (R101), the detection of a changed byte (R111) and the residue
(R112) hold for all words and strings. -/

namespace Sys2Proof.Machine

/-! ## A turn of the loop is linear -/

/-- What a turn adds for the bit it shifts out: linear in that bit. -/
theorem crcFeedback_xor (x y : BitVec 1) (p : Word) :
    (if x ^^^ y = 1#1 then p else 0#32) =
      (if x = 1#1 then p else 0#32) ^^^ (if y = 1#1 then p else 0#32) := by
  obtain rfl | rfl := BitVec.eq_zero_or_eq_one x <;>
    obtain rfl | rfl := BitVec.eq_zero_or_eq_one y <;> simp

theorem crcShift_xor (c d : Word) : crcShift (c ^^^ d) = crcShift c ^^^ crcShift d := by
  simp only [crcShift, BitVec.ushiftRight_xor_distrib, BitVec.extractLsb'_xor, crcFeedback_xor]
  ac_rfl

theorem crcShifts_zero (c : Word) : crcShifts 0 c = c := rfl
theorem crcShifts_succ (n : Nat) (c : Word) : crcShifts (n + 1) c = crcShifts n (crcShift c) := rfl

theorem crcShifts_add (m n : Nat) (c : Word) : crcShifts (m + n) c = crcShifts n (crcShifts m c) := by
  induction m generalizing c with
  | zero => rw [Nat.zero_add, crcShifts_zero]
  | succ m ih => rw [Nat.succ_add, crcShifts_succ, crcShifts_succ, ih]

theorem crcShifts_xor (n : Nat) (c d : Word) : crcShifts n (c ^^^ d) = crcShifts n c ^^^ crcShifts n d := by
  induction n generalizing c d with
  | zero => rfl
  | succ n ih => rw [crcShifts_succ, crcShift_xor, ih, crcShifts_succ, crcShifts_succ]

/-! ## A byte's turns as a table entry and a shift (40_crc.md R101) -/

theorem crcShift_of_even {c : Word} (h : c.getLsbD 0 = false) : crcShift c = c >>> 1 := by
  have hbit : (c.extractLsb' 0 1).getLsbD 0 = false := by simpa using h
  have hne : c.extractLsb' 0 1 ≠ 1#1 := fun h1 => by simp [h1] at hbit
  rw [crcShift_eq, if_neg hne]

/-- Turns that only shift out zeros are a shift. -/
theorem crcShifts_of_low_zero {n : Nat} {c : Word} (h : ∀ j < n, c.getLsbD j = false) :
    crcShifts n c = c >>> n := by
  induction n generalizing c with
  | zero => exact (BitVec.ushiftRight_zero c).symm
  | succ n ih =>
    have hrest : ∀ j < n, (c >>> 1).getLsbD j = false := fun j hj => by
      rw [BitVec.getLsbD_ushiftRight]
      exact h _ (by omega)
    rw [crcShifts_succ, crcShift_of_even (h 0 n.succ_pos), ih hrest, ← BitVec.shiftRight_add, Nat.add_comm]

theorem crcTable_eq (i : Byte) : crcTable i = crcShifts 8 (i.setWidth 32) := by
  simp [crcTable, crcStep]

theorem byte_ushiftRight_eight (b : Byte) : b.setWidth 32 >>> 8 = 0#32 := by
  apply BitVec.eq_of_getLsbD_eq
  intro j _
  simp

/-- Eight turns work on the low byte alone; the upper bits are shifted down past it. -/
theorem crcShifts_eight (v : Word) : crcShifts 8 v = (v >>> 8) ^^^ crcTable (v.setWidth 8) := by
  let low : Word := (v.setWidth 8).setWidth 32
  have hupper : ∀ j < 8, (v ^^^ low).getLsbD j = false := fun j hj => by
    have hj' : j < 32 := by omega
    simp [low, hj, hj']
  calc crcShifts 8 v
      = crcShifts 8 ((v ^^^ low) ^^^ low) := by rw [BitVec.xor_assoc, BitVec.xor_self, BitVec.xor_zero]
    _ = ((v ^^^ low) >>> 8) ^^^ crcShifts 8 low := by rw [crcShifts_xor, crcShifts_of_low_zero hupper]
    _ = (v >>> 8) ^^^ crcTable (v.setWidth 8) := by
      rw [BitVec.ushiftRight_xor_distrib, byte_ushiftRight_eight, BitVec.xor_zero, crcTable_eq]

/-- The table form of 40_crc.md R101. -/
theorem crcStep_eq_table (c : Word) (b : Byte) :
    crcStep c b = (c >>> 8) ^^^ crcTable ((c ^^^ b.setWidth 32).setWidth 8) := by
  rw [crcStep, crcShifts_eight, BitVec.ushiftRight_xor_distrib, byte_ushiftRight_eight, BitVec.xor_zero]

/-- Settles O24: eight turns are a shift and the turns of the low byte, by linearity. -/
theorem crcStepIsTheTableForm : Obligations.CrcStepIsTheTableForm :=
  ⟨fun _ => rfl, crcStep_eq_table, by decide⟩

/-! ## No turn loses a difference (40_crc.md R111) -/

/-- Bit 31 of a turn is the bit shifted out, since the polynomial's is 1, so a turn to 0 starts from 0. -/
theorem crcShift_eq_zero {c : Word} (h : crcShift c = 0#32) : c = 0#32 := by
  rw [crcShift_eq] at h
  split at h
  case isTrue =>
    have hmsb : crcPoly.msb = false := by simpa using congrArg BitVec.msb h
    exact absurd hmsb (by decide)
  case isFalse hbit =>
    have hlow : c.extractLsb' 0 1 = 0#1 := (BitVec.eq_zero_or_eq_one _).resolve_right hbit
    apply BitVec.eq_of_getLsbD_eq
    intro j _
    cases j with
    | zero => simpa using congrArg (BitVec.getLsbD · 0) hlow
    | succ j => simpa [Nat.add_comm] using congrArg (BitVec.getLsbD · j) h

theorem crcShift_injective : Function.Injective crcShift := by
  intro c d h
  have hzero : crcShift (c ^^^ d) = 0#32 := by rw [crcShift_xor, h, BitVec.xor_self]
  exact BitVec.xor_eq_zero_iff.mp (crcShift_eq_zero hzero)

theorem crcShifts_injective (n : Nat) : Function.Injective (crcShifts n) := by
  induction n with
  | zero => exact Function.injective_id
  | succ n ih => exact ih.comp crcShift_injective

theorem crcStep_left_injective (b : Byte) : Function.Injective (crcStep · b) := fun _ _ h =>
  (BitVec.xor_left_inj _).mp (crcShifts_injective 8 h)

theorem crcStep_right_injective (c : Word) : Function.Injective (crcStep c) := fun _ _ h => by
  have hwide := (BitVec.xor_right_inj c).mp (crcShifts_injective 8 h)
  simpa using congrArg (BitVec.setWidth 8) hwide

theorem crcFold_injective (s : Bytes) : Function.Injective (crcFold · s) := by
  induction s with
  | nil => exact Function.injective_id
  | cons b s ih => exact ih.comp (crcStep_left_injective b)

theorem crcFold_append (c : Word) (s t : Bytes) : crcFold c (s ++ t) = crcFold (crcFold c s) t := by
  induction s generalizing c with
  | nil => rfl
  | cons b s ih => exact ih _

/-- Settles O25: the changed byte leaves different states, and the common rest and the final complement keep
them different. -/
theorem oneChangedByteChangesTheChecksum : Obligations.OneChangedByteChangesTheChecksum := by
  intro p q b b' hne h
  have hfold : crcFold crcInitValue (p ++ b :: q) = crcFold crcInitValue (p ++ b' :: q) :=
    (BitVec.xor_left_inj _).mp h
  rw [crcFold_append, crcFold_append] at hfold
  exact hne (crcStep_right_injective _ (crcFold_injective q hfold))

/-! ## The residue (40_crc.md R112) -/

/-- Eight turns of the state and a word together feed the word's low byte and move its others down. -/
theorem crcShifts_eight_xor (c v : Word) :
    crcShifts 8 (c ^^^ v) = crcStep c (v.extractLsb' 0 8) ^^^ (v >>> 8) := by
  have hlow : (c ^^^ (v.setWidth 8).setWidth 32).setWidth 8 = (c ^^^ v).setWidth 8 := by
    simp [BitVec.setWidth_xor]
  rw [← BitVec.setWidth_eq_extractLsb' (by decide), crcStep_eq_table, hlow, crcShifts_eight,
    BitVec.ushiftRight_xor_distrib]
  ac_rfl

/-- Feeding a word's bytes, least significant first, is 32 turns of the state and the word together. -/
theorem crcFold_le32 (c v : Word) : crcFold c (le32 v) = crcShifts 32 (c ^^^ v) := by
  have hbyte (n : Nat) : (v >>> n).extractLsb' 0 8 = v.extractLsb' n 8 := by
    apply BitVec.eq_of_getLsbD_eq
    intro j _
    simp
  have hnone : v >>> 32 = 0#32 := BitVec.ushiftRight_eq_zero (Nat.le_refl 32)
  have hturns (u : Word) : crcShifts 32 u = crcShifts 8 (crcShifts 8 (crcShifts 8 (crcShifts 8 u))) := rfl
  simp only [hturns, crcShifts_eight_xor, ← BitVec.shiftRight_add, Nat.reduceAdd, hbyte, hnone,
    BitVec.xor_zero, le32, crcFold_cons, crcFold_nil]

/-- Settles O26: the state and its complement differ in every bit, so the 32 turns start from all ones whatever
the string was. -/
theorem checksumAppendedLittleEndianLeavesTheResidue :
    Obligations.ChecksumAppendedLittleEndianLeavesTheResidue := by
  intro s
  have hones : crcFold crcInitValue s ^^^ crc32 s = crcXorOut := by
    rw [crc32, ← BitVec.xor_assoc, BitVec.xor_self, BitVec.zero_xor]
  have hturns : crcShifts 32 crcXorOut = 0xDEBB20E3#32 := by decide
  refine ⟨?_, by decide⟩
  calc crcFold crcInitValue (s ++ le32 (crc32 s))
      = crcShifts 32 (crcFold crcInitValue s ^^^ crc32 s) := by rw [crcFold_append, crcFold_le32]
    _ = 0xDEBB20E3#32 := by rw [hones, hturns]

/-- Settles O27: the folds are computed, the long one in two parts. -/
theorem checksumsOfKnownStrings : Obligations.ChecksumsOfKnownStrings := by
  have hfirst : crcFold crcInitValue [0x31#8, 0x32#8, 0x33#8, 0x34#8, 0x35#8] = 0x340AC5E3#32 := by decide
  have hrest : crcFold 0x340AC5E3#32 [0x36#8, 0x37#8, 0x38#8, 0x39#8] ^^^ crcXorOut = 0xCBF43926#32 :=
    by decide
  refine ⟨by decide, by decide, ?_⟩
  rw [← hrest, ← hfirst, ← crcFold_append]
  rfl

end Sys2Proof.Machine

/-! The statements of 40_crc.md about the CRC unit's commands: what `NOP`, `CRC.INIT`, `CRC.BYTE` and `CRC.WORD`
do, legal (R105 to R108) and malformed (R76), that nothing else moves the CRC state (R104), and that they leave the
wrapper unit alone (R110). A malformed word is `exec_of_malformed`'s case, for every command. -/

namespace Sys2Proof.Machine

open Sys2Proof.Safety

/-! ## The legal commands -/

theorem exec_nop (s : State) : exec (.nop 0#24) s = .next s := rfl

theorem exec_crcInit (s : State) :
    exec (.crcInit 0#24) s = .next { s with crcState := crcInitValue, crcCount := 0x00000000#32 } := rfl

theorem exec_crcByte (b : Byte) (s : State) : exec (.crcByte 0#16 b) s = .next (feed b s) := rfl

theorem exec_crcWord (k : BitVec 2) (s : State) :
    exec (.crcWord 0#22 k) s = .next (feedAll (operandBytes s.opnd (wordCount k)) s) := rfl

/-- The count as the spec writes it, modulo 2^32 (40_crc.md R104). -/
theorem word_add_ofNat (c : Word) (n : Nat) : c + BitVec.ofNat 32 n = BitVec.ofNat 32 ((c.toNat + n) % 2 ^ 32) := by
  apply BitVec.eq_of_toNat_eq
  simp

/-- The bytes a form W command takes from `OPND` are the spec's slices of it (20_memory.md R54). -/
theorem operandBytes_eq_leadingBytes (v : Word) (k : BitVec 2) :
    operandBytes v (wordCount k) = leadingBytes v (k.toNat + 1) := by
  obtain ⟨-, hle⟩ := wordCount_le k
  have hbytes : be32 v = leadingBytes v 4 := rfl
  rw [operandBytes, hbytes, leadingBytes, ← List.map_take, List.take_range, Nat.min_eq_left hle]
  rfl

/-- `CRC.BYTE` of each byte of a string in order feeds the string. -/
theorem execAll_map_crcByte (d : Bytes) (s : State) :
    execAll (d.map (.crcByte 0#16)) s = .next (feedAll d s) := by
  induction d generalizing s with
  | nil => rfl
  | cons b d ih => exact (execAll_cons_of_next (exec_crcByte b s)).trans (ih (feed b s))

/-! ## What moves the CRC state (40_crc.md R104) -/

/-- An instruction means what it amounts to. -/
theorem exec_resolve (i : Instr) (s : State) : exec (resolve i) s = exec i s := by
  cases i with
  | wrCmd w => exact (execWrCmd_eq w s).symm
  | _ => rfl

/-- An instruction that feeds bytes does nothing but feed them. -/
theorem exec_of_fedBytes {i : Instr} {s : State} (h : fedBytes i s ≠ []) :
    exec i s = .next (feedAll (fedBytes i s) s) := by
  rw [← exec_resolve]
  unfold fedBytes at h ⊢
  cases hi : resolve i with
  | crcByte rsv b | crcWord rsv =>
    simp only [hi, ne_eq, ite_eq_right_iff, not_forall] at h
    obtain ⟨rfl, -⟩ := h
    rfl
  | _ => simp [hi] at h

/-- The CRC state and count move by the bytes fed, but for `CRC.INIT`. -/
theorem exec_crc_of_not_init {i : Instr} {s t : State} (hi : resolve i ≠ .crcInit 0#24)
    (h : exec i s = .next t) : t.crcState = crcFold s.crcState (fedBytes i s) ∧
      t.crcCount = s.crcCount + BitVec.ofNat 32 (fedBytes i s).length := by
  by_cases hfed : fedBytes i s = []
  · rw [hfed]
    cases exec_effect h with
    | crcInit hinit => exact absurd hinit hi
    | fed d hd => rw [← hd, hfed]; simp [feedAll]
    | appended d => rw [appendAll_eq]; simp
    | _ => simp
  · rw [exec_of_fedBytes hfed, feedAll_eq] at h
    cases h
    exact ⟨rfl, rfl⟩

/-- Settles O29: legal `CRC.INIT` by its meaning, every other instruction by the bytes it feeds. -/
theorem crcStateMovesOnlyByInitAndFeeding : Obligations.CrcStateMovesOnlyByInitAndFeeding := by
  intro i s
  obtain ⟨t, ht⟩ := everyInstructionCompletes i s
  refine ⟨t, ht, fun hinit => ?_, fun hne => exec_crc_of_not_init hne ht⟩
  rw [← exec_resolve, hinit, exec_crcInit] at ht
  cases ht
  exact ⟨rfl, rfl⟩

/-! ## The words of the CRC unit -/

/-- OP 0x00 to 0x03 are `NOP` and the CRC unit's commands (30_encoding.md R73). -/
theorem decodeCommand_of_op_le_three {w : Word} (h : (opcode w).toNat ≤ 0x03) :
    (∃ rsv, decodeCommand w = .nop rsv) ∨ (∃ rsv, decodeCommand w = .crcInit rsv) ∨
    (∃ rsv b, decodeCommand w = .crcByte rsv b) ∨ (∃ rsv k, decodeCommand w = .crcWord rsv k) := by
  have hops : ∀ op : BitVec 8, op.toNat ≤ 0x03 → op = 0x00#8 ∨ op = 0x01#8 ∨ op = 0x02#8 ∨ op = 0x03#8 := by
    decide
  obtain hop | hop | hop | hop := hops _ h
  · exact .inl ⟨_, by rw [← wordN_of_op hop, decodeCommand_wordN_nop]⟩
  · exact .inr (.inl ⟨_, by rw [← wordN_of_op hop, decodeCommand_wordN_crcInit]⟩)
  · exact .inr (.inr (.inl ⟨_, _, by rw [← wordB_of_op hop, decodeCommand_wordB_crcByte]⟩))
  · exact .inr (.inr (.inr ⟨_, _, by rw [← wordW_of_op hop, decodeCommand_wordW_crcWord]⟩))

/-- A legal one sets the CRC state and count, if anything. -/
theorem exec_crcCommand_of_legal {w : Word} (h : (opcode w).toNat ≤ 0x03)
    (hrsv : (decodeCommand w).reservedZero = true) (s : State) :
    ∃ c n, exec (decodeCommand w) s = .next { s with crcState := c, crcCount := n } := by
  obtain ⟨rsv, hi⟩ | ⟨rsv, hi⟩ | ⟨rsv, b, hi⟩ | ⟨rsv, k, hi⟩ := decodeCommand_of_op_le_three h <;>
    rw [hi] at hrsv ⊢ <;> cases eq_of_beq hrsv
  · exact ⟨s.crcState, s.crcCount, rfl⟩
  · exact ⟨_, _, exec_crcInit s⟩
  · exact ⟨_, _, exec_crcByte b s⟩
  · exact ⟨_, _, (exec_crcWord k s).trans (congrArg _ (feedAll_eq _ s))⟩

/-- Settles O30: a legal word sets the CRC state and count, a malformed one the error record. -/
theorem crcCommandsLeaveTheWrapperAlone : Obligations.CrcCommandsLeaveTheWrapperAlone := by
  intro w s h
  cases hrsv : (decodeCommand w).reservedZero with
  | true =>
    obtain ⟨c, n, hexec⟩ := exec_crcCommand_of_legal h hrsv s
    exact ⟨_, (execWrCmd_eq w s).trans hexec, rfl, rfl, rfl, rfl, rfl, rfl, rfl⟩
  | false =>
    have hexec := exec_of_malformed (encode_decodeCommand w) (.inl hrsv) s
    exact ⟨_, (execWrCmd_eq w s).trans hexec, rfl, rfl, rfl, rfl, rfl, rfl, rfl⟩

/-! ## Each command -/

/-- Settles O20: the legal word has no effect, and nonzero reserved bits make it malformed. -/
theorem nopDoesNothingOrRecordsOperand : Obligations.NopDoesNothingOrRecordsOperand :=
  ⟨exec_nop, fun rsv s hrsv => exec_of_malformed (i := .nop rsv) rfl (.inl (beq_false_of_ne hrsv)) s⟩

/-- Settles O21: what it sets does not depend on the state before, so a second one changes nothing. -/
theorem crcInitRestartsTheChecksum : Obligations.CrcInitRestartsTheChecksum :=
  ⟨fun s => ⟨exec_crcInit s, rfl⟩,
    fun rsv s hrsv => exec_of_malformed (i := .crcInit rsv) rfl (.inl (beq_false_of_ne hrsv)) s⟩

/-- Settles O22: its meaning is FEED of its byte, and the two corner values are computed. -/
theorem crcByteFeedsItsByte : Obligations.CrcByteFeedsItsByte := by
  refine ⟨fun b s => ?_,
    fun rsv b s hrsv => exec_of_malformed (i := .crcByte rsv b) rfl (.inl (beq_false_of_ne hrsv)) s,
    by decide, by decide⟩
  rw [exec_crcByte, feed, ← word_add_ofNat]
  rfl

/-- Settles O23: its meaning is FEED of the leading bytes of `OPND`, and so is the list of `CRC.BYTE`. -/
theorem crcWordFeedsTheLeadingBytes : Obligations.CrcWordFeedsTheLeadingBytes := by
  refine ⟨fun k s => ?_, fun k s => ?_,
    fun rsv k s hrsv => exec_of_malformed (i := .crcWord rsv k) rfl (.inl (beq_false_of_ne hrsv)) s⟩
  · have hlen : (operandBytes s.opnd (wordCount k)).length = k.toNat + 1 := operandBytes_length s.opnd k
    rw [exec_crcWord, feedAll_eq, hlen, operandBytes_eq_leadingBytes, word_add_ofNat]
  · rw [exec_crcWord, operandBytes_eq_leadingBytes, execAll_map_crcByte]

end Sys2Proof.Machine

/-! The statements of 41_deflate_wrapper.md about the envelope as a function: the halves of the Adler-32 (R131),
the stored blocks, their length and their reading (R132, R147), and the envelope's parts (R134, R146). -/

namespace Sys2Proof.Machine

open Sys2Proof.Safety

/-! ## The halves of the Adler-32 (41_deflate_wrapper.md R131) -/

/-- Two halves that fit 16 bits are read back from the word they make. -/
theorem halves_of_word {lo hi : Nat} (hlo : lo < 2 ^ 16) (hhi : hi < 2 ^ 16) :
    ((BitVec.ofNat 32 (hi * 2 ^ 16 + lo)).extractLsb' 0 16).toNat = lo ∧
    ((BitVec.ofNat 32 (hi * 2 ^ 16 + lo)).extractLsb' 16 16).toNat = hi := by
  simp only [BitVec.extractLsb'_toNat, BitVec.toNat_ofNat, Nat.shiftRight_eq_div_pow]
  omega

theorem adlerStep_halves (a : Word) (b : Byte) :
    ((adlerStep a b).extractLsb' 0 16).toNat = ((a.extractLsb' 0 16).toNat + b.toNat) % 65521 ∧
    ((adlerStep a b).extractLsb' 16 16).toNat < 65521 := by
  have hmod (n : Nat) : n % adlerMod < 65521 := Nat.mod_lt n (by decide)
  obtain ⟨hlo, hhi⟩ := halves_of_word ((hmod _).trans (by decide)) ((hmod _).trans (by decide))
  exact ⟨hlo, hhi.trans_lt (hmod _)⟩

theorem adlerFold_lower {a : Word} (ha : (a.extractLsb' 0 16).toNat < 65521) (d : Bytes) :
    ((adlerFold a d).extractLsb' 0 16).toNat =
      ((a.extractLsb' 0 16).toNat + (d.map BitVec.toNat).sum) % 65521 := by
  induction d generalizing a with
  | nil => simpa using (Nat.mod_eq_of_lt ha).symm
  | cons b d ih =>
    obtain ⟨hlo, -⟩ := adlerStep_halves a b
    rw [adlerFold_cons, ih (hlo.trans_lt (Nat.mod_lt _ (by decide))), hlo, List.map_cons, List.sum_cons,
      Nat.mod_add_mod, Nat.add_assoc]

theorem adlerFold_upper_lt {a : Word} (ha : (a.extractLsb' 16 16).toNat < 65521) (d : Bytes) :
    ((adlerFold a d).extractLsb' 16 16).toNat < 65521 := by
  induction d generalizing a with
  | nil => exact ha
  | cons b d ih => exact ih (adlerStep_halves a b).2

/-- Settles O41: a step keeps both bounds and adds its byte to the lower half, and the fold starts from 1. -/
theorem adlerHalvesStayBelowTheModulus : Obligations.AdlerHalvesStayBelowTheModulus := fun d =>
  ⟨adlerFold_lower (a := adlerInit) (by decide) d, adlerFold_upper_lt (a := adlerInit) (by decide) d⟩

/-! ## Stored blocks (41_deflate_wrapper.md R132) -/

section Stored

variable {d : Bytes}

theorem storedBlocks_last (h : d.length ≤ 65535) (fuel : Nat) :
    storedBlocks (fuel + 1) d = storedBlock true d := if_pos h

theorem storedBlocks_more (h : 65535 < d.length) (fuel : Nat) :
    storedBlocks (fuel + 1) d = storedBlock false (d.take 65535) ++ storedBlocks fuel (d.drop 65535) :=
  if_neg (Nat.not_le.mpr h)

theorem storedBlock_length (final : Bool) (d : Bytes) : (storedBlock final d).length = d.length + 5 := by
  simp [storedBlock, le16]

/-- Each turn of the loop stores up to 65535 bytes behind a header of 5. -/
theorem storedBlocks_length {fuel : Nat} (hf : d.length < fuel) :
    (storedBlocks fuel d).length = d.length + 5 * max 1 ((d.length + 65534) / 65535) := by
  induction fuel generalizing d with
  | zero => omega
  | succ fuel ih =>
    by_cases h : d.length ≤ 65535
    · rw [storedBlocks_last h, storedBlock_length]
      omega
    · have hdrop : (d.drop 65535).length = d.length - 65535 := List.length_drop
      have htake : (d.take 65535).length = 65535 := by rw [List.length_take]; omega
      rw [storedBlocks_more (by omega), List.length_append, storedBlock_length, ih (by omega), htake, hdrop]
      omega

/-- LEN is read back from its two bytes. -/
theorem le16_toNat (k : BitVec 16) :
    (k.extractLsb' 0 8).toNat + 256 * (k.extractLsb' 8 8).toNat = k.toNat := by
  have := k.isLt
  simp only [BitVec.extractLsb'_toNat, Nat.shiftRight_eq_div_pow]
  omega

/-- The bytes of NLEN are the complements of those of LEN. -/
theorem extractLsb'_xor_ones (k : BitVec 16) {i : Nat} (hi : i + 8 ≤ 16) :
    (k ^^^ 0xFFFF#16).extractLsb' i 8 = ~~~ k.extractLsb' i 8 := by
  have hones : k ^^^ 0xFFFF#16 = ~~~ k := BitVec.xor_allOnes
  apply BitVec.eq_of_getElem_eq
  intro j hj
  have hij : i + j < 16 := by omega
  simp [hones, BitVec.getElem_extractLsb', hij]

/-- A block as its reader sees it: the header byte, LEN, NLEN and the data before what follows. -/
theorem storedBlock_append (final : Bool) (h : d.length ≤ 65535) (rest : Bytes) :
    ∃ l0 l1 : Byte, storedBlock final d ++ rest =
      (if final then 0x01#8 else 0x00#8) :: l0 :: l1 :: ~~~ l0 :: ~~~ l1 :: (d ++ rest) ∧
      l0.toNat + 256 * l1.toNat = d.length := by
  refine ⟨_, _, ?_, (le16_toNat (BitVec.ofNat 16 d.length)).trans ?_⟩
  · simp [storedBlock, le16, extractLsb'_xor_ones]
  · simp; omega

theorem readStored_last (h : d.length ≤ 65535) (fuel : Nat) :
    readStored (fuel + 1) (storedBlock true d) = some d := by
  obtain ⟨l0, l1, hblock, hlen⟩ := storedBlock_append true h []
  rw [List.append_nil, List.append_nil] at hblock
  simp [hblock, readStored, hlen]

theorem readStored_more (h : d.length ≤ 65535) (fuel : Nat) (rest : Bytes) :
    readStored (fuel + 1) (storedBlock false d ++ rest) = (readStored fuel rest).map (d ++ ·) := by
  obtain ⟨l0, l1, hblock, hlen⟩ := storedBlock_append false h rest
  simp [hblock, readStored, hlen]

theorem readStored_storedBlocks {fuel : Nat} (hf : d.length < fuel) :
    readStored fuel (storedBlocks fuel d) = some d := by
  induction fuel generalizing d with
  | zero => omega
  | succ fuel ih =>
    by_cases h : d.length ≤ 65535
    · rw [storedBlocks_last h, readStored_last h]
    · have hdrop : (d.drop 65535).length < fuel := by rw [List.length_drop]; omega
      rw [storedBlocks_more (by omega), readStored_more (List.length_take_le _ _), ih hdrop,
        Option.map_some, List.take_append_drop]

end Stored

/-! ## The parts of the envelope (41_deflate_wrapper.md R134) -/

theorem envelope_eq (l : Level) (d : Bytes) :
    envelope l d = [0x78#8, flg l] ++ deflateBody l d ++ be32 (a32 d) := rfl

theorem envelope_length (l : Level) (d : Bytes) : (envelope l d).length = (deflateBody l d).length + 6 :=
  envelopeWith_length l d (a32 d)

theorem deflateBody_zero (d : Bytes) : deflateBody 0 d = stored d := rfl

theorem deflateBody_of_ne_zero {l : Level} (h : l ≠ 0) (d : Bytes) : deflateBody l d = Config.deflateFn l d :=
  if_neg h

/-- Removing the header and the trailer leaves the body. -/
theorem envelope_body (l : Level) (d : Bytes) :
    ((envelope l d).drop 2).take ((envelope l d).length - 6) = deflateBody l d := by
  rw [envelope_length, Nat.add_sub_cancel, envelope_eq, List.append_assoc]
  exact List.take_left

/-- The last four bytes are the trailer. -/
theorem envelope_trailer (l : Level) (d : Bytes) :
    (envelope l d).drop ((envelope l d).length - 4) = be32 (a32 d) := by
  have hlen : (envelope l d).length - 4 = ([0x78#8, flg l] ++ deflateBody l d).length := by
    rw [envelope_length, List.length_append, List.length_cons, List.length_singleton]
    omega
  rw [hlen, envelope_eq]
  exact List.drop_left

/-- `|ENVELOPE(0, d)|` (41_deflate_wrapper.md R147). -/
theorem envelope_zero_length (d : Bytes) :
    (envelope 0 d).length = d.length + 5 * max 1 ((d.length + 65534) / 65535) + 6 := by
  rw [envelope_length, deflateBody_zero, stored, storedBlocks_length (Nat.lt_succ_self _)]

/-- Settles O38: the body is what stands between header and trailer, and a reading of the stored blocks undoes
each turn of the loop. -/
theorem bodyOfTheEnvelopeDecodesToTheData : Obligations.BodyOfTheEnvelopeDecodesToTheData := by
  refine ⟨fun d => ⟨⟨d.length + 1, readStored_storedBlocks (Nat.lt_succ_self _)⟩, envelope_body 0 d⟩,
    fun inflate l d hl hdec => ?_, envelope_trailer⟩
  rw [envelope_body, deflateBody_of_ne_zero hl]
  exact hdec

/-- Settles O40: the parts by definition, the header's bits for each of the ten levels. -/
theorem envelopeIsHeaderBodyTrailer : Obligations.EnvelopeIsHeaderBodyTrailer := by
  refine ⟨fun l d => ⟨deflateBody l d, ?_, fun hl => deflateBody_of_ne_zero hl d, rfl, envelope_length l d⟩,
    by decide, by decide⟩
  rintro rfl
  exact deflateBody_zero d

end Sys2Proof.Machine

/-! The statements of 41_deflate_wrapper.md about the wrapper's commands: what `DFL.START`, `DFL.BYTE`, `DFL.WORD`,
`DFL.FINISH` and `DFL.ABORT` do (R140 to R144, R147), and that the phase moves by the rows of the table (R145).
A malformed word is `exec_of_malformed`'s case, for every command. -/

namespace Sys2Proof.Machine

open Sys2Proof.Safety

/-! ## The ends of a command that fails -/

theorem raiseError_eq (c : Cause) (w : Word) (s : State) : raiseError c w s = .next (raised c w s) :=
  congrArg _ (recordError_eq_raised c w s)

theorem overflow_eq (c : Cause) (w : Word) (s : State) : overflow c w s = .next (raised c w (aborted s)) :=
  raiseError_eq c w (abortSession s)

/-! ## Each command in each phase -/

section Commands

variable {s : State}

theorem exec_dflStart {lvl : BitVec 4} {l : Level} (hl : levelOf lvl = some l) (hp : s.phase ≠ .collect) :
    exec (.dflStart 0#20 lvl) s = .next (openSession l s) := by
  simp [exec, execDflStart, hl, hp]

theorem exec_dflStart_in_collect {lvl : BitVec 4} (hl : lvl.toNat ≤ 9) (hp : s.phase = .collect) :
    exec (.dflStart 0#20 lvl) s = .next (raised .seq (wordL 0x10#8 0#20 lvl) s) := by
  simp [exec, execDflStart, levelOf_of_le hl, hp, raiseError_eq]

theorem exec_dflByte (b : Byte) (hp : s.phase = .collect) (hc : s.inBuf.length + 1 ≤ s.cfg.inCap) :
    exec (.dflByte 0#16 b) s = .next (append b s) := by
  simp [exec, execDflByte, hp, Nat.not_lt.mpr hc]

theorem exec_dflByte_overflow (b : Byte) (hp : s.phase = .collect) (hc : s.inBuf.length + 1 > s.cfg.inCap) :
    exec (.dflByte 0#16 b) s = .next (raised .inOvf (wordB 0x11#8 0#16 b) (aborted s)) := by
  simp [exec, execDflByte, hp, hc, overflow_eq]

theorem exec_dflByte_outside_collect (b : Byte) (hp : s.phase ≠ .collect) :
    exec (.dflByte 0#16 b) s = .next (raised .seq (wordB 0x11#8 0#16 b) s) := by
  simp [exec, execDflByte, hp, raiseError_eq]

theorem exec_dflWord (k : BitVec 2) (hp : s.phase = .collect)
    (hc : s.inBuf.length + wordCount k ≤ s.cfg.inCap) :
    exec (.dflWord 0#22 k) s = .next (appendAll (operandBytes s.opnd (wordCount k)) s) := by
  simp [exec, execDflWord, hp, Nat.not_lt.mpr hc]

theorem exec_dflWord_overflow (k : BitVec 2) (hp : s.phase = .collect)
    (hc : s.inBuf.length + wordCount k > s.cfg.inCap) :
    exec (.dflWord 0#22 k) s = .next (raised .inOvf (wordW 0x12#8 0#22 k) (aborted s)) := by
  simp [exec, execDflWord, hp, hc, overflow_eq]

theorem exec_dflWord_outside_collect (k : BitVec 2) (hp : s.phase ≠ .collect) :
    exec (.dflWord 0#22 k) s = .next (raised .seq (wordW 0x12#8 0#22 k) s) := by
  simp [exec, execDflWord, hp, raiseError_eq]

theorem exec_dflFinish (hp : s.phase = .collect) (hc : s.finished.length ≤ s.cfg.outCap) :
    exec (.dflFinish 0#24) s = .next (closeSession s.finished s) := by
  simp [exec, execDflFinish, hp, Nat.not_lt.mpr hc]

theorem exec_dflFinish_overflow (hp : s.phase = .collect) (hc : s.finished.length > s.cfg.outCap) :
    exec (.dflFinish 0#24) s = .next (raised .outOvf (wordN 0x13#8 0#24) (aborted s)) := by
  simp [exec, execDflFinish, hp, hc, overflow_eq]

theorem exec_dflFinish_outside_collect (hp : s.phase ≠ .collect) :
    exec (.dflFinish 0#24) s = .next (raised .seq (wordN 0x13#8 0#24) s) := by
  simp [exec, execDflFinish, hp, raiseError_eq]

theorem exec_dflAbort (s : State) : exec (.dflAbort 0#24) s = .next (abortSession s) := rfl

/-- `DFL.BYTE` of each byte of a string that fits appends the string. -/
theorem execAll_map_dflByte (d : Bytes) (hp : s.phase = .collect)
    (hc : s.inBuf.length + d.length ≤ s.cfg.inCap) :
    execAll (d.map (.dflByte 0#16)) s = .next (appendAll d s) := by
  induction d generalizing s with
  | nil => rfl
  | cons b d ih =>
    rw [List.length_cons] at hc
    have htail : (append b s).inBuf.length + d.length ≤ (append b s).cfg.inCap := by simp; omega
    exact (execAll_cons_of_next (exec_dflByte b hp (by omega))).trans (ih hp htail)

/-- The level an assembler writes is the one `DFL.START` opens (30_encoding.md R72). -/
theorem levelOf_ofNat : ∀ l : Level, levelOf (BitVec.ofNat 4 l.val) = some l := by decide

/-- Aborting leaves an idle session as it is. -/
theorem aborted_of_idle (hp : s.phase = .idle) (hin : s.inBuf = []) (hout : s.outBuf = [])
    (hptr : s.outPtr = 0x00000000#32) (hadler : s.adler = 0x00000001#32) : aborted s = s := by
  cases s
  cases hp; cases hin; cases hout; cases hptr; cases hadler
  rfl

end Commands

/-- Settles O31: the level's range and the phase decide which of the three it is. -/
theorem dflStartOpensASession : Obligations.DflStartOpensASession := by
  refine ⟨fun l s hp => exec_dflStart (levelOf_ofNat l) hp, fun lvl s hl hp => exec_dflStart_in_collect hl hp,
    fun rsv lvl s hbad => exec_of_malformed (i := .dflStart rsv lvl) rfl ?_ s⟩
  exact hbad.imp beq_false_of_ne fun hlvl => decide_eq_false (by omega)

/-- Settles O32: the phase and the room in `IN_BUF` decide which it is. -/
theorem dflByteAppendsItsByte : Obligations.DflByteAppendsItsByte :=
  ⟨fun b _ hp hc => exec_dflByte b hp hc, fun b _ hp hc => exec_dflByte_overflow b hp hc,
    fun b _ hp => exec_dflByte_outside_collect b hp,
    fun rsv b s hrsv => exec_of_malformed (i := .dflByte rsv b) rfl (.inl (beq_false_of_ne hrsv)) s⟩

/-- Settles O33: with room it appends the leading bytes of `OPND`, and so does the list of `DFL.BYTE`. -/
theorem dflWordAppendsTheLeadingBytes : Obligations.DflWordAppendsTheLeadingBytes := by
  refine ⟨fun k s hp hc => ?_, fun k _ hp hc => exec_dflWord_overflow k hp hc,
    fun k _ hp => exec_dflWord_outside_collect k hp,
    fun rsv k s hrsv => exec_of_malformed (i := .dflWord rsv k) rfl (.inl (beq_false_of_ne hrsv)) s⟩
  have hlen : (operandBytes s.opnd (wordCount k)).length = k.toNat + 1 := operandBytes_length s.opnd k
  rw [exec_dflWord k hp hc, ← operandBytes_eq_leadingBytes]
  exact ⟨congrArg _ (appendAll_eq _ s), (execAll_map_dflByte _ hp (hlen.symm ▸ hc)).symm⟩

/-- Settles O34: Z is what the machine finishes with, and its length decides whether the session closes. -/
theorem dflFinishProducesTheEnvelope : Obligations.DflFinishProducesTheEnvelope :=
  ⟨fun s hp => ⟨s.finished, rfl, exec_dflFinish hp, exec_dflFinish_overflow hp, finished_eq_envelope⟩,
    fun _ hp => exec_dflFinish_outside_collect hp,
    fun rsv s hrsv => exec_of_malformed (i := .dflFinish rsv) rfl (.inl (beq_false_of_ne hrsv)) s, by decide⟩

/-- Settles O35: its meaning is ABORT_SESSION, which leaves `IDLE`, where a read of the output is EMPTY. -/
theorem dflAbortEndsTheSession : Obligations.DflAbortEndsTheSession :=
  ⟨fun s => ⟨exec_dflAbort s, rdDflOutData_returns_empty nofun, aborted_of_idle⟩,
    fun rsv s hrsv => exec_of_malformed (i := .dflAbort rsv) rfl (.inl (beq_false_of_ne hrsv)) s⟩

/-- Settles O39: the invariant bounds `IN_BUF` by `IN_CAP`, so the envelope has at most 262,431 bytes. -/
theorem levelZeroNeverOverflowsByDefault : Obligations.LevelZeroNeverOverflowsByDefault := by
  refine ⟨envelope_zero_length, fun s hinv hin hout hp hl => ?_⟩
  obtain ⟨hlen, -, -, hadler⟩ := hinv.collect hp
  have hz : s.finished = envelope 0 s.inBuf := (finished_eq_envelope hadler).trans (by rw [hl])
  have hbound : s.finished.length ≤ 262431 := by
    rw [hz, envelope_zero_length]
    omega
  exact ⟨_, exec_dflFinish hp (by omega), rfl, hz, hbound, rfl⟩

/-! ## The phase table (41_deflate_wrapper.md R145) -/

/-- The table asks for the envelope's length, which is that of what the machine finishes with. -/
theorem finished_length (s : State) : s.finished.length = (envelope s.level s.inBuf).length :=
  (envelopeWith_length _ _ _).trans (envelope_length _ _).symm

/-- Each overflow is a row of the table, to `IDLE`. -/
theorem phaseRow_of_overflows {i : Instr} {s : State} (hp : s.phase = .collect) (h : Overflows i s) :
    PhaseRow (resolve i) s .idle := by
  obtain ⟨b, hi, hc⟩ | ⟨k, hi, hc⟩ | ⟨hi, hc⟩ := h
  · exact .inr (.inr (.inr (.inl ⟨b, hi, hp, hc, rfl⟩)))
  · exact .inr (.inr (.inr (.inr (.inl ⟨k, hi, hp, hc, rfl⟩))))
  · exact .inr (.inr (.inr (.inr (.inr (.inr (.inl ⟨hi, hp, finished_length s ▸ hc, rfl⟩))))))

/-- An instruction keeps the phase or is in a row of the table. -/
theorem exec_phase_cases {i : Instr} {s t : State} (h : exec i s = .next t) :
    t.phase = s.phase ∨ PhaseRow (resolve i) s t.phase := by
  cases exec_effect h with
  | overflow c w hw hp hi => exact .inr (phaseRow_of_overflows hp hi)
  | opened l lvl hi hl hp => exact .inr (.inl ⟨lvl, hi, (levelOf_eq_some hl).1, hp, rfl⟩)
  | closed hi hp hc =>
    exact .inr (.inr (.inr (.inr (.inr (.inr (.inl ⟨hi, hp, finished_length s ▸ hc, rfl⟩))))))
  | aborted hi => exact .inr (.inr (.inr (.inr (.inr (.inr (.inr (.inr ⟨hi, rfl⟩)))))))
  | fed d => rw [feedAll_eq]; exact .inl rfl
  | appended d => rw [appendAll_eq]; exact .inl rfl
  | _ => exact .inl (by simp)

/-- A row of the table leads to its phase. -/
theorem exec_of_phaseRow {i : Instr} {s : State} {p : Phase} (h : PhaseRow i s p) :
    ∃ t, exec i s = .next t ∧ t.phase = p := by
  obtain ⟨lvl, rfl, hl, hp, rfl⟩ | ⟨b, rfl, hp, hc, rfl⟩ | ⟨k, rfl, hp, hc, rfl⟩ | ⟨b, rfl, hp, hc, rfl⟩ |
    ⟨k, rfl, hp, hc, rfl⟩ | ⟨rfl, hp, hc, rfl⟩ | ⟨rfl, hp, hc, rfl⟩ | ⟨rfl, rfl⟩ := h
  · exact ⟨_, exec_dflStart (levelOf_of_le hl) hp, rfl⟩
  · exact ⟨_, exec_dflByte b hp hc, hp⟩
  · exact ⟨_, exec_dflWord k hp hc, by rw [appendAll_eq]; exact hp⟩
  · exact ⟨_, exec_dflByte_overflow b hp hc, rfl⟩
  · exact ⟨_, exec_dflWord_overflow k hp hc, rfl⟩
  · exact ⟨_, exec_dflFinish hp ((finished_length s).trans_le hc), rfl⟩
  · exact ⟨_, exec_dflFinish_overflow hp (hc.trans_eq (finished_length s).symm), rfl⟩
  · exact ⟨_, exec_dflAbort s, rfl⟩

/-- Settles O36: an instruction moves the phase by a row of the table or not at all, each row is one of the
commands' cases, and of the reset events only the release of an asserted reset moves the phase. -/
theorem phaseChangesOnlyByTheTable : Obligations.PhaseChangesOnlyByTheTable := by
  refine ⟨fun s t hs hne => ?_, fun i s p hrow => ?_, fun s rest hr hp => ⟨_, step_release hr hp, rfl⟩,
    fun i s hno => ?_, fun s => ⟨_, rfl, readOut_phase s⟩⟩
  · obtain ⟨-, rfl⟩ | ⟨a, hf, rfl⟩ | ⟨i, hf, he⟩ := step_next_cases hs
    · exact absurd rfl hne
    · obtain ⟨-, hd⟩ | ⟨rfl, hr, hd⟩ | ⟨-, -, hd⟩ := driveReset_cases a (popEvent s) <;> rw [hd] at hne ⊢
      · exact absurd rfl hne
      · exact .inr ⟨hf, hr, rfl⟩
      · exact absurd rfl hne
    · exact .inl ⟨i, hf, (exec_phase_cases he).resolve_left hne⟩
  · rw [← exec_resolve]
    exact exec_of_phaseRow hrow
  · obtain ⟨t, ht⟩ := everyInstructionCompletes i s
    exact ⟨t, ht, (exec_phase_cases ht).resolve_right (hno t.phase)⟩

end Sys2Proof.Machine

/-! The session of 41_deflate_wrapper.md R130, run on the block: `DFL.BYTES` appends its bytes (30_encoding.md
R83), the reads of `DFL_OUT_DATA` return the rest of the output (42_register_access.md R180), and the whole session
returns the envelope. -/

namespace Sys2Proof.Machine

open Sys2Proof.Safety

/-! ## Appending through `OPND` (30_encoding.md R83) -/

section Appending

variable {s : State} (hp : s.phase = .collect)

include hp

/-- Staging four bytes and a form W command for the first k + 1 of them appends those, when they fit. -/
theorem execAll_stageWord_dflWord (a b c d : Byte) (k : BitVec 2)
    (hc : s.inBuf.length + wordCount k ≤ s.cfg.inCap) :
    execAll ((stageWord 0x12#8 (a ++ b ++ c ++ d) k).map decode) s =
      .next (appendAll ([a, b, c, d].take (wordCount k)) { s with opnd := a ++ b ++ c ++ d }) := by
  have hstage : exec (decode (.write idxOpnd (a ++ b ++ c ++ d))) s =
      .next { s with opnd := a ++ b ++ c ++ d } := rfl
  have hword : decode (.command (wordW 0x12#8 0 k)) = .dflWord 0 k := decodeCommand_wordW_dflWord 0 k
  have hexec := exec_dflWord (s := { s with opnd := a ++ b ++ c ++ d }) k hp hc
  rw [← be32_append]
  simp only [stageWord, List.map_cons, List.map_nil, execAll_cons_of_next hstage, hword]
  exact execAll_cons_of_next hexec

/-- `DFL.BYTES d` appends d, when it fits; of the rest it changes the staged operand only. -/
theorem execAll_pseudoDflBytes (d : Bytes) (hc : s.inBuf.length + d.length ≤ s.cfg.inCap) :
    ∃ v, execAll ((pseudoDflBytes d).map decode) s = .next (appendAll d { s with opnd := v }) := by
  unfold pseudoDflBytes
  fun_induction pseudoBytes 0x12#8 d generalizing s with
  | case1 a b c d t ih =>
    simp only [List.length_cons] at hc
    have hfour : s.inBuf.length + wordCount 3#2 ≤ s.cfg.inCap := (show s.inBuf.length + 4 ≤ _ by omega)
    have hgroup := execAll_stageWord_dflWord hp a b c d 3#2 hfour
    rw [appendAll_eq] at hgroup
    obtain ⟨v, hrest⟩ := ih (s := { s with
        opnd := a ++ b ++ c ++ d
        inBuf := s.inBuf ++ [a, b, c, d]
        adler := adlerFold s.adler [a, b, c, d] }) hp (by simp; omega)
    refine ⟨v, ?_⟩
    rw [List.map_append, execAll_append hgroup]
    refine hrest.trans ?_
    simp [appendAll_eq]
  | case2 a b c => exact ⟨_, execAll_stageWord_dflWord hp a b c 0#8 2#2 hc⟩
  | case3 a b => exact ⟨_, execAll_stageWord_dflWord hp a b 0#8 0#8 1#2 hc⟩
  | case4 a => exact ⟨_, execAll_stageWord_dflWord hp a 0#8 0#8 0#8 0#2 hc⟩
  | case5 => exact ⟨s.opnd, rfl⟩

end Appending

/-! ## Reading the output (42_register_access.md R180) -/

theorem exec_rdDflOutData {s : State} {b : Byte} (hp : s.phase = .done)
    (hb : s.outBuf[s.outPtr.toNat]? = some b) :
    exec .rdDflOutData s = .next (answer (b.setWidth 32) { s with outPtr := s.outPtr + 1 }) := by
  simp [exec, execRdDflOutData, readOut, hp, hb]

/-- As many reads as there are bytes from the pointer on return those bytes in order; of the rest they move the
pointer only. -/
theorem execAll_reads_of_rest {s : State} {z : Bytes} (hp : s.phase = .done)
    (hlen : s.outBuf.length < 2 ^ 32) (hz : s.outBuf.drop s.outPtr.toNat = z) :
    ∃ p, execAll (List.replicate z.length .rdDflOutData) s =
      .next { s with outPtr := p, returned := (z.map (BitVec.setWidth 32)).reverse ++ s.returned } := by
  induction z generalizing s with
  | nil => exact ⟨s.outPtr, rfl⟩
  | cons b z ih =>
    have hb : s.outBuf[s.outPtr.toNat]? = some b := by
      rw [← List.head?_drop, hz, List.head?_cons]
    have hlt : s.outPtr.toNat < s.outBuf.length := (List.getElem?_eq_some_iff.mp hb).1
    have hptr : (s.outPtr + 1).toNat = s.outPtr.toNat + 1 := by
      rw [BitVec.toNat_add]
      exact Nat.mod_eq_of_lt (Nat.lt_of_le_of_lt hlt hlen)
    have hrest : s.outBuf.drop (s.outPtr + 1).toNat = z := by
      rw [hptr, ← List.tail_drop, hz, List.tail_cons]
    obtain ⟨p, hreads⟩ := ih (s := answer (b.setWidth 32) { s with outPtr := s.outPtr + 1 }) hp hlen hrest
    refine ⟨p, (execAll_cons_of_next (exec_rdDflOutData hp hb)).trans (hreads.trans ?_)⟩
    simp [answer]

/-! ## The session -/

/-- The codes of a session (41_deflate_wrapper.md R130): `DFL.START l`, `DFL.BYTES d`, `DFL.FINISH`, the reads. -/
def sessionCodes (l : Level) (d : Bytes) : List Code :=
  .command (wordL 0x10#8 0 (BitVec.ofNat 4 l.val)) ::
    (pseudoDflBytes d ++ .command (wordN 0x13#8 0) ::
      List.replicate (envelope l d).length (.read idxDflOutData))

/-- The instructions a session's codes are. -/
theorem map_decode_sessionCodes (l : Level) (d : Bytes) :
    (sessionCodes l d).map decode = .dflStart 0#20 (BitVec.ofNat 4 l.val) ::
      ((pseudoDflBytes d).map decode ++ .dflFinish 0#24 ::
        List.replicate (envelope l d).length .rdDflOutData) := by
  have hstart := decodeCommand_wordL_dflStart 0 (BitVec.ofNat 4 l.val)
  have hfinish := decodeCommand_wordN_dflFinish 0
  have hread : decode (.read idxDflOutData) = .rdDflOutData := rfl
  rw [sessionCodes, List.map_cons, List.map_append, List.map_cons, List.map_replicate, hread]
  exact congrArg₂ _ hstart (congrArg _ (congrArg₂ _ hfinish rfl))

/-- The state of a session at level l that has collected d, with `v` in `OPND`. -/
def collected (l : Level) (d : Bytes) (v : Word) (s : State) : State :=
  { s with opnd := v, phase := .collect, level := l, inBuf := d, outBuf := [], outPtr := 0x00000000#32,
           adler := a32 d }

/-- Feeding a fresh session d collects it. -/
theorem appendAll_openSession (l : Level) (d : Bytes) (v : Word) (s : State) :
    appendAll d { openSession l s with opnd := v } = collected l d v s := appendAll_eq d _

theorem exec_dflFinish_collected {l : Level} {d : Bytes} {s : State} (v : Word)
    (hout : (envelope l d).length ≤ s.cfg.outCap) :
    exec (.dflFinish 0#24) (collected l d v s) = .next (closeSession (envelope l d) (collected l d v s)) :=
  exec_dflFinish (s := collected l d v s) rfl hout

/-- A session whose bytes and envelope fit runs to its end and returns the envelope. -/
theorem execAll_session {s : State} {l : Level} {d : Bytes} (hp : s.phase ≠ .collect)
    (hin : d.length ≤ s.cfg.inCap) (hout : (envelope l d).length ≤ s.cfg.outCap)
    (hcap : s.cfg.outCap ≤ 2 ^ 32 - 1) :
    ∃ v p, execAll ((sessionCodes l d).map decode) s = .next { s with
      opnd := v, phase := .done, level := l, inBuf := d, outBuf := envelope l d, outPtr := p, adler := a32 d,
      returned := ((envelope l d).map (BitVec.setWidth 32)).reverse ++ s.returned } := by
  have hstart := exec_dflStart (levelOf_ofNat l) hp
  obtain ⟨v, hbytes⟩ := execAll_pseudoDflBytes (s := openSession l s) rfl d (by simpa using hin)
  rw [appendAll_openSession] at hbytes
  have hfinish := exec_dflFinish_collected v hout
  obtain ⟨p, hreads⟩ := execAll_reads_of_rest (s := closeSession (envelope l d) (collected l d v s)) rfl
    (show (envelope l d).length < 2 ^ 32 by omega) rfl
  refine ⟨v, p, ?_⟩
  rw [map_decode_sessionCodes, execAll_cons_of_next hstart, execAll_append hbytes, execAll_cons_of_next hfinish]
  exact hreads

/-- Settles O37: the events run as the instructions of the session, which return the envelope. -/
theorem sessionReturnsTheEnvelope : Obligations.SessionReturnsTheEnvelope := by
  intro s l d hr hp hin hout hcap
  obtain ⟨v, p, hrun⟩ := execAll_session (s := { s with pending := [] }) hp hin hout hcap
  exact ⟨_, (run_eventsOf (sessionCodes l d) hr rfl).trans hrun, rfl, rfl, rfl, rfl, rfl, rfl, rfl, rfl, rfl, rfl, rfl⟩

end Sys2Proof.Machine

/-! The statements of 42_register_access.md: what each read returns (R172, R173, R178 to R190), the staging of
`OPND` (R174), the acknowledgement through `STATUS` (R175), and the writes the block ignores (R171). -/

namespace Sys2Proof.Machine

open Sys2Proof.Safety

/-! ## The fields of `STATUS` (10_state.md R24 to R26) -/

section Status

variable (s : State)

theorem status_phase : s.status.extractLsb' 0 2 = s.phase.code := append_lower _ _

/-- The bits of `STATUS` above `PHASE`. -/
theorem status_above_phase {k : Nat} (hk : 2 ≤ k) (l : Nat) :
    s.status.extractLsb' k l = (0#19 ++ s.err ++ 0#5 ++ BitVec.ofBool s.outAvail).extractLsb' (k - 2) l :=
  append_above (0#19 ++ s.err ++ 0#5 ++ BitVec.ofBool s.outAvail) s.phase.code k l hk

/-- The bits of `STATUS` above `OUT_AVAIL`. -/
theorem status_above_outAvail {k : Nat} (hk : 3 ≤ k) (l : Nat) :
    s.status.extractLsb' k l = (0#19 ++ s.err ++ 0#5).extractLsb' (k - 3) l :=
  (status_above_phase s (by omega) l).trans
    (append_above (0#19 ++ s.err ++ 0#5) (BitVec.ofBool s.outAvail) (k - 2) l (by omega))

theorem status_outAvail : s.status.extractLsb' 2 1 = BitVec.ofBool s.outAvail :=
  (status_above_phase s le_rfl 1).trans (append_lower _ _)

theorem status_outAvail_bit : s.status.getLsbD 2 = s.outAvail := by
  have hbit := congrArg (BitVec.getLsbD · 0) (status_outAvail s)
  simpa using hbit

theorem status_reserved_low : s.status.extractLsb' 3 5 = 0#5 :=
  (status_above_outAvail s le_rfl 5).trans (append_lower _ _)

theorem status_err : s.status.extractLsb' 8 5 = s.err :=
  (status_above_outAvail s (by decide) 5).trans
    ((append_above (0#19 ++ s.err) 0#5 5 5 le_rfl).trans (append_lower _ _))

theorem status_reserved_high : s.status.extractLsb' 13 19 = 0#19 :=
  (status_above_outAvail s (by decide) 19).trans
    ((append_above (0#19 ++ s.err) 0#5 10 19 (by decide)).trans (append_upper _ _))

theorem outAvail_iff : s.outAvail = true ↔ s.phase = .done ∧ s.outPtr.toNat < s.outBuf.length :=
  decide_eq_true_iff

end Status

/-! ## The output read (42_register_access.md R180) -/

/-- Without a byte at the pointer, or outside `DONE`, the read of `DFL_OUT_DATA` is EMPTY. -/
theorem rdDflOutData_returns_empty_of_not_avail {s : State}
    (h : ¬ (s.phase = .done ∧ s.outPtr.toNat < s.outBuf.length)) : Returns .rdDflOutData s 0x00000100#32 := by
  obtain ⟨b, hp, hb, -⟩ | ⟨-, hread⟩ := readOut_cases s
  · exact absurd ⟨hp, (List.getElem?_eq_some_iff.mp hb).1⟩ h
  · exact congrArg Host.Outcome.next hread

/-! ## The acknowledgement (42_register_access.md R175) -/

/-- The error bits an acknowledgement leaves are those whose bit of the value is 0. -/
theorem getLsbD_acknowledge_err (v : Word) (s : State) {j : Nat} (hj : j < 5) :
    (acknowledge v s).err.getLsbD j = (s.err.getLsbD j && !v.getLsbD (8 + j)) := by
  simp [clearMask, hj]

/-! ## The ignored writes (42_register_access.md R171) -/

/-- Of the word indices only `STATUS`, `CMD` and `OPND` (1, 2 and 3) take a write. -/
theorem exec_decodeWrite_of_readOnly {idx : BitVec 6} (h : idx.toNat = 0 ∨ 4 ≤ idx.toNat) (v : Word) (s : State) :
    exec (decodeWrite idx v) s = .next s := by
  unfold decodeWrite
  split
  case h_2 | h_3 | h_4 => omega
  case h_17 => split <;> rfl
  all_goals rfl

/-! ## The obligations -/

/-- Settles O44: `STATUS` is read field by field, the record through its codes. -/
theorem statusAndErrorReadsReturnTheRecord : Obligations.StatusAndErrorReadsReturnTheRecord := by
  intro s
  refine ⟨⟨s.status, rfl, ?_, ?_, status_reserved_low s, status_err s, status_reserved_high s⟩,
    ⟨(causeCode s.errCause).setWidth 32, rfl, ?_⟩, rfl⟩
  · rw [status_phase]
    cases s.phase <;> rfl
  · rw [status_outAvail_bit]
    exact outAvail_iff s
  · cases s.errCause with
    | none => rfl
    | some c => cases c <;> rfl

/-- Settles O46: the write is the one effect that stages an operand, and every instruction completes. -/
theorem opndWriteStagesItsValue : Obligations.OpndWriteStagesItsValue := by
  refine ⟨fun v s => ⟨rfl, rfl⟩, fun i s hi => ?_⟩
  obtain ⟨t, ht⟩ := everyInstructionCompletes i s
  obtain hsame | hstaged := exec_opnd_cases ht
  · exact ⟨t, ht, hsame⟩
  · exact absurd hstaged (hi t.opnd)

/-- Settles O47: an acknowledgement that leaves no error bit clears the record, any other keeps it. -/
theorem statusWriteClearsTheErrorBitsWrittenAsOne : Obligations.StatusWriteClearsTheErrorBitsWrittenAsOne := by
  intro v s
  have hbits : ∀ j, j < 5 → (acknowledge v s).err.getLsbD j = (s.err.getLsbD j && !v.getLsbD (8 + j)) :=
    fun j hj => getLsbD_acknowledge_err v s hj
  obtain ⟨-, hack⟩ | ⟨hleft, hack⟩ := acknowledge_cases v s <;> rw [hack] at hbits
  · exact ⟨0#5, none, 0x00000000#32, congrArg Host.Outcome.next hack, hbits, fun _ => ⟨rfl, rfl⟩,
      fun hne => absurd rfl hne⟩
  · exact ⟨s.err &&& ~~~ clearMask v, s.errCause, s.errCmd, congrArg Host.Outcome.next hack, hbits,
      fun h0 => absurd h0 hleft, fun _ => ⟨rfl, rfl⟩⟩

/-- Settles O42: each of these reads answers its register's value or its constant. -/
theorem commonAndCrcReadsReturnTheirRegisters : Obligations.CommonAndCrcReadsReturnTheirRegisters :=
  fun _ => ⟨rfl, rfl, rfl, rfl, rfl, rfl, fun _ => rfl, fun _ => rfl⟩

/-- Settles O43: each of these reads answers its field of the wrapper unit. -/
theorem wrapperReadsReturnTheirRegisters : Obligations.WrapperReadsReturnTheirRegisters :=
  fun _ => ⟨rfl, rfl, rfl, rfl, rfl⟩

/-- Settles O45: a byte at the pointer in `DONE` is read and passed, and without one the read is EMPTY. -/
theorem outputReadReturnsTheNextByteOrEmpty : Obligations.OutputReadReturnsTheNextByteOrEmpty :=
  ⟨fun _ h hp => exec_rdDflOutData hp (List.getElem?_eq_getElem h),
    fun _ h => rdDflOutData_returns_empty_of_not_avail h⟩

/-- Settles O48: the constructors one by one, the word indices by the decoder. -/
theorem writesToReadOnlyRegistersAreIgnored : Obligations.WritesToReadOnlyRegistersAreIgnored := by
  refine ⟨fun v s => ⟨fun i hi => ?_, fun _ => rfl, fun _ => rfl⟩,
    fun v s idx h => exec_decodeWrite_of_readOnly h v s⟩
  simp only [List.mem_cons, List.not_mem_nil, or_false] at hi
  obtain rfl | rfl | rfl | rfl | rfl | rfl | rfl | rfl | rfl | rfl | rfl | rfl | rfl := hi <;> rfl

end Sys2Proof.Machine

/-! The statements of 60_exceptions.md: one command raises the error of R74's first failing check and no other
(R204), nothing but a command raises one (R202), and the record of past errors gates no command (R205). What a
command does is read off its word check by check, in the order of `firstFailingCheck`. -/

namespace Sys2Proof.Machine

open Sys2Proof.Safety

/-! ## The words of legal commands (30_encoding.md R71, R73) -/

/-- The nine opcodes of 30_encoding.md R73. -/
def assignedOpcodes : List (BitVec 8) :=
  [0x00#8, 0x01#8, 0x02#8, 0x03#8, 0x10#8, 0x11#8, 0x12#8, 0x13#8, 0x14#8]

theorem unassigned_of_not_mem : ∀ op : BitVec 8, op ∉ assignedOpcodes →
    (0x04 ≤ op.toNat ∧ op.toNat ≤ 0x0F) ∨ 0x15 ≤ op.toNat := by decide

/-- Under an assigned opcode a malformed word is one that R76 calls malformed. -/
theorem malformed_cases {w : Word} (hop : opcode w ∈ assignedOpcodes) (hm : malformed w = true) :
    (opcode w ∈ [0x00#8, 0x01#8, 0x13#8, 0x14#8] ∧ w.extractLsb' 0 24 ≠ 0#24) ∨
    (opcode w ∈ [0x02#8, 0x11#8] ∧ w.extractLsb' 8 16 ≠ 0#16) ∨
    (opcode w ∈ [0x03#8, 0x12#8] ∧ w.extractLsb' 2 22 ≠ 0#22) ∨
    (opcode w = 0x10#8 ∧ (w.extractLsb' 4 20 ≠ 0#20 ∨ 10 ≤ (w.extractLsb' 0 4).toNat)) := by
  have hL : ∀ op ∈ assignedOpcodes, op ∉ [0x00#8, 0x01#8, 0x13#8, 0x14#8] → op ∉ [0x02#8, 0x11#8] →
      op ∉ [0x03#8, 0x12#8] → op = 0x10#8 := by decide
  unfold malformed at hm
  split_ifs at hm with hN hB hW
  · exact .inl ⟨hN, by simpa using hm⟩
  · exact .inr (.inl ⟨hB, by simpa using hm⟩)
  · exact .inr (.inr (.inl ⟨hW, by simpa using hm⟩))
  · have hbad : w.extractLsb' 4 20 ≠ 0#20 ∨ 9 < (w.extractLsb' 0 4).toNat := by simpa using hm
    exact .inr (.inr (.inr ⟨hL _ hop hN hB hW, hbad⟩))

section Formats

variable {w : Word} {op : BitVec 8} (hop : opcode w = op) (hm : ¬ malformed w = true)

include hop hm

theorem wordN_of_legal (h : op ∈ [0x00#8, 0x01#8, 0x13#8, 0x14#8]) : w = wordN op 0#24 := by
  have hrsv : w.extractLsb' 0 24 = 0#24 := by simpa [malformed, hop, h] using hm
  rw [← hrsv, wordN_of_op hop]

theorem wordB_of_legal (h : op = 0x02#8 ∨ op = 0x11#8) : ∃ b, w = wordB op 0#16 b := by
  have hrsv : w.extractLsb' 8 16 = 0#16 := by obtain rfl | rfl := h <;> simpa [malformed, hop] using hm
  exact ⟨w.extractLsb' 0 8, by rw [← hrsv, wordB_of_op hop]⟩

theorem wordW_of_legal (h : op = 0x03#8 ∨ op = 0x12#8) : ∃ k, w = wordW op 0#22 k := by
  have hrsv : w.extractLsb' 2 22 = 0#22 := by obtain rfl | rfl := h <;> simpa [malformed, hop] using hm
  exact ⟨w.extractLsb' 0 2, by rw [← hrsv, wordW_of_op hop]⟩

theorem wordL_of_legal (h : op = 0x10#8) : ∃ lvl, w = wordL op 0#20 lvl ∧ lvl.toNat ≤ 9 := by
  subst h
  have hbits : w.extractLsb' 4 20 = 0#20 ∧ (w.extractLsb' 0 4).toNat ≤ 9 := by
    simpa [malformed, hop] using hm
  obtain ⟨hrsv, hlvl⟩ := hbits
  exact ⟨w.extractLsb' 0 4, by rw [← hrsv, wordL_of_op hop], hlvl⟩

end Formats

/-! ## The checks of 30_encoding.md R74 -/

/-- What `WR CMD` does is what the command its word encodes does. -/
theorem exec_wrCmd_of_exec {i : Instr} {s : State} {w : Word} {o : Host.Outcome State Fault Refusal}
    (h : exec i s = o) (hw : encode i = .command w) : exec (.wrCmd w) s = o := by
  have hi : decodeCommand w = i := (congrArg decode hw).symm.trans (decode_encode i)
  exact (execWrCmd_eq w s).trans (hi ▸ h)

theorem appendCount_wordB (b : Byte) : appendCount (wordB 0x11#8 0#16 b) = 1 := by
  simp [appendCount, opcode]

theorem appendCount_wordW (k : BitVec 2) : appendCount (wordW 0x12#8 0#22 k) = wordCount k := by
  simp [appendCount, opcode, wordCount]

section Checks

variable {w : Word} {s : State}

theorem exec_wrCmd_unassigned (hop : opcode w ∉ assignedOpcodes) :
    exec (.wrCmd w) s = .next (raised .illegal w s) := by
  obtain ⟨hillegal, -⟩ := illegalWordRecordsIllegalAndNothingElse
  exact hillegal w s (unassigned_of_not_mem _ hop)

theorem exec_wrCmd_malformed (hop : opcode w ∈ assignedOpcodes) (hm : malformed w = true) :
    exec (.wrCmd w) s = .next (raised .operand w s) :=
  malformedWordRecordsOperandAndNothingElse w s (malformed_cases hop hm)

variable (hm : ¬ malformed w = true)

include hm

theorem exec_wrCmd_outside_collect (hop : opcode w ∈ [0x11#8, 0x12#8, 0x13#8]) (hp : s.phase ≠ .collect) :
    exec (.wrCmd w) s = .next (raised .seq w s) := by
  simp only [List.mem_cons, List.not_mem_nil, or_false] at hop
  obtain hop | hop | hop := hop
  · obtain ⟨b, rfl⟩ := wordB_of_legal hop hm (.inr rfl)
    exact exec_wrCmd_of_exec (exec_dflByte_outside_collect b hp) rfl
  · obtain ⟨k, rfl⟩ := wordW_of_legal hop hm (.inr rfl)
    exact exec_wrCmd_of_exec (exec_dflWord_outside_collect k hp) rfl
  · obtain rfl := wordN_of_legal hop hm (by decide)
    exact exec_wrCmd_of_exec (exec_dflFinish_outside_collect hp) rfl

theorem exec_wrCmd_start_in_collect (hop : opcode w = 0x10#8) (hp : s.phase = .collect) :
    exec (.wrCmd w) s = .next (raised .seq w s) := by
  obtain ⟨lvl, rfl, hl⟩ := wordL_of_legal hop hm rfl
  exact exec_wrCmd_of_exec (exec_dflStart_in_collect hl hp) rfl

theorem exec_wrCmd_input_overflow (hop : opcode w ∈ [0x11#8, 0x12#8]) (hp : s.phase = .collect)
    (hc : s.inBuf.length + appendCount w > s.cfg.inCap) :
    exec (.wrCmd w) s = .next (raised .inOvf w (aborted s)) := by
  simp only [List.mem_cons, List.not_mem_nil, or_false] at hop
  obtain hop | hop := hop
  · obtain ⟨b, rfl⟩ := wordB_of_legal hop hm (.inr rfl)
    rw [appendCount_wordB] at hc
    exact exec_wrCmd_of_exec (exec_dflByte_overflow b hp hc) rfl
  · obtain ⟨k, rfl⟩ := wordW_of_legal hop hm (.inr rfl)
    rw [appendCount_wordW] at hc
    exact exec_wrCmd_of_exec (exec_dflWord_overflow k hp hc) rfl

theorem exec_wrCmd_output_overflow (hop : opcode w = 0x13#8) (hp : s.phase = .collect)
    (hc : (envelope s.level s.inBuf).length > s.cfg.outCap) :
    exec (.wrCmd w) s = .next (raised .outOvf w (aborted s)) := by
  obtain rfl := wordN_of_legal hop hm (by decide)
  exact exec_wrCmd_of_exec (exec_dflFinish_overflow hp (finished_length s ▸ hc)) rfl

end Checks

/-! ## A command that fails a check -/

/-- The state an error is recorded in: an overflow aborts the session first (60_exceptions.md R203). -/
def stateAtError (s : State) : Cause → State
  | .inOvf | .outOvf => aborted s
  | .illegal | .operand | .seq => s

/-- The first failing check decides the error, whichever it is (60_exceptions.md R204). -/
theorem exec_wrCmd_of_failing {w : Word} {s : State} {c : Cause} (h : firstFailingCheck w s = some c) :
    exec (.wrCmd w) s = .next (raised c w (stateAtError s c)) := by
  unfold firstFailingCheck at h
  split_ifs at h with hop hm hseq hstart hin hout <;> cases h
  · exact exec_wrCmd_malformed hop hm
  · obtain ⟨hop, hp⟩ := hseq
    exact exec_wrCmd_outside_collect hm hop hp
  · obtain ⟨hop, hp⟩ := hstart
    exact exec_wrCmd_start_in_collect hm hop hp
  · obtain ⟨hop, hc⟩ := hin
    have hp : s.phase = .collect := not_not.mp (not_and.mp hseq (List.mem_append_left [0x13#8] hop))
    exact exec_wrCmd_input_overflow hm hop hp hc
  · obtain ⟨hop, hc⟩ := hout
    have hp : s.phase = .collect := not_not.mp (not_and.mp hseq (by simp [hop]))
    exact exec_wrCmd_output_overflow hm hop hp hc
  · exact exec_wrCmd_unassigned hop

/-! ## A command that fails none -/

/-- The commands that pass every check of R74 in `s`: the word is legal, and the phase and the buffers' room are
what the command needs. -/
inductive Passes (s : State) : Instr → Prop where
  | nop : Passes s (.nop 0#24)
  | crcInit : Passes s (.crcInit 0#24)
  | crcByte (b : Byte) : Passes s (.crcByte 0#16 b)
  | crcWord (k : BitVec 2) : Passes s (.crcWord 0#22 k)
  | dflStart (lvl : BitVec 4) (hl : lvl.toNat ≤ 9) (hp : s.phase ≠ .collect) : Passes s (.dflStart 0#20 lvl)
  | dflByte (b : Byte) (hp : s.phase = .collect) (hc : s.inBuf.length + 1 ≤ s.cfg.inCap) :
      Passes s (.dflByte 0#16 b)
  | dflWord (k : BitVec 2) (hp : s.phase = .collect) (hc : s.inBuf.length + wordCount k ≤ s.cfg.inCap) :
      Passes s (.dflWord 0#22 k)
  | dflFinish (hp : s.phase = .collect) (hc : s.finished.length ≤ s.cfg.outCap) : Passes s (.dflFinish 0#24)
  | dflAbort : Passes s (.dflAbort 0#24)

/-- What holds of a word and a state when no check fails, check by check. -/
theorem checks_of_not_failing {w : Word} {s : State} (h : firstFailingCheck w s = none) :
    opcode w ∈ assignedOpcodes ∧ ¬ malformed w = true ∧
    (opcode w ∈ [0x11#8, 0x12#8, 0x13#8] → s.phase = .collect) ∧
    (opcode w = 0x10#8 → s.phase ≠ .collect) ∧
    (opcode w ∈ [0x11#8, 0x12#8] → s.inBuf.length + appendCount w ≤ s.cfg.inCap) ∧
    (opcode w = 0x13#8 → s.finished.length ≤ s.cfg.outCap) := by
  unfold firstFailingCheck at h
  split_ifs at h with hop hm hseq hstart hin hout
  rw [← finished_length] at hout
  exact ⟨hop, hm, fun hop => not_not.mp (not_and.mp hseq hop), not_and.mp hstart,
    fun hop => not_lt.mp (not_and.mp hin hop), fun hop => not_lt.mp (not_and.mp hout hop)⟩

theorem passes_of_not_failing {w : Word} {s : State} (h : firstFailingCheck w s = none) :
    ∃ i, Passes s i ∧ encode i = .command w := by
  obtain ⟨hop, hm, hcollect, hstart, hin, hout⟩ := checks_of_not_failing h
  simp only [assignedOpcodes, List.mem_cons, List.not_mem_nil, or_false] at hop
  obtain hop | hop | hop | hop | hop | hop | hop | hop | hop := hop <;> simp only [hop] at hcollect hin
  · exact ⟨_, .nop, congrArg _ (wordN_of_legal hop hm (by decide)).symm⟩
  · exact ⟨_, .crcInit, congrArg _ (wordN_of_legal hop hm (by decide)).symm⟩
  · obtain ⟨b, rfl⟩ := wordB_of_legal hop hm (.inl rfl)
    exact ⟨_, .crcByte b, rfl⟩
  · obtain ⟨k, rfl⟩ := wordW_of_legal hop hm (.inl rfl)
    exact ⟨_, .crcWord k, rfl⟩
  · obtain ⟨lvl, rfl, hl⟩ := wordL_of_legal hop hm rfl
    exact ⟨_, .dflStart lvl hl (hstart hop), rfl⟩
  · obtain ⟨b, rfl⟩ := wordB_of_legal hop hm (.inr rfl)
    rw [appendCount_wordB] at hin
    exact ⟨_, .dflByte b (hcollect (by decide)) (hin (by decide)), rfl⟩
  · obtain ⟨k, rfl⟩ := wordW_of_legal hop hm (.inr rfl)
    rw [appendCount_wordW] at hin
    exact ⟨_, .dflWord k (hcollect (by decide)) (hin (by decide)), rfl⟩
  · exact ⟨_, .dflFinish (hcollect (by decide)) (hout hop), congrArg _ (wordN_of_legal hop hm (by decide)).symm⟩
  · exact ⟨_, .dflAbort, congrArg _ (wordN_of_legal hop hm (by decide)).symm⟩

/-! ## The error record gates no command (60_exceptions.md R205) -/

/-- `s` with another error record. -/
def withRecord (e : BitVec 5) (c : Option Cause) (w : Word) (s : State) : State :=
  { s with err := e, errCause := c, errCmd := w }

section Record

variable (e : BitVec 5) (c : Option Cause) (v : Word) (s : State)

theorem feedAll_withRecord (d : Bytes) : feedAll d (withRecord e c v s) = withRecord e c v (feedAll d s) := by
  simp only [feedAll_eq, withRecord]

theorem appendAll_withRecord (d : Bytes) : appendAll d (withRecord e c v s) = withRecord e c v (appendAll d s) := by
  simp only [appendAll_eq, withRecord]

/-- No check of R74 looks at the error record. -/
theorem firstFailingCheck_withRecord (w : Word) :
    firstFailingCheck w (withRecord e c v s) = firstFailingCheck w s := rfl

end Record

/-- A command that passes its checks does the same work under every error record, and keeps the record. -/
theorem exec_withRecord_of_passes {i : Instr} {s : State} (h : Passes s i) :
    ∃ t, ∀ e c v, exec i (withRecord e c v s) = .next (withRecord e c v t) := by
  cases h with
  | nop => exact ⟨s, fun _ _ _ => rfl⟩
  | crcInit => exact ⟨{ s with crcState := crcInitValue, crcCount := 0x00000000#32 }, fun _ _ _ => rfl⟩
  | crcByte b => exact ⟨feed b s, fun _ _ _ => rfl⟩
  | crcWord k =>
    refine ⟨feedAll (operandBytes s.opnd (wordCount k)) s, fun e c v => ?_⟩
    rw [exec_crcWord, feedAll_withRecord]; rfl
  | dflStart lvl hl hp => exact ⟨openSession _ s, fun _ _ _ => exec_dflStart (levelOf_of_le hl) hp⟩
  | dflByte b hp hc => exact ⟨append b s, fun _ _ _ => exec_dflByte b hp hc⟩
  | dflWord k hp hc =>
    refine ⟨appendAll (operandBytes s.opnd (wordCount k)) s, fun e c v => ?_⟩
    rw [exec_dflWord (s := withRecord e c v s) k hp hc, appendAll_withRecord]; rfl
  | dflFinish hp hc => exact ⟨closeSession s.finished s, fun _ _ _ => exec_dflFinish hp hc⟩
  | dflAbort => exact ⟨abortSession s, fun _ _ _ => rfl⟩

theorem exec_wrCmd_withRecord_of_not_failing {w : Word} {s : State} (h : firstFailingCheck w s = none) :
    ∃ t, ∀ e c v, exec (.wrCmd w) (withRecord e c v s) = .next (withRecord e c v t) := by
  obtain ⟨i, hi, hw⟩ := passes_of_not_failing h
  obtain ⟨t, ht⟩ := exec_withRecord_of_passes hi
  exact ⟨t, fun e c v => exec_wrCmd_of_exec (ht e c v) hw⟩

theorem encode_of_isCommand {i : Instr} (h : i.isCommand = true) : ∃ w, encode i = .command w := by
  cases i with
  | nop | crcInit | crcByte | crcWord | dflStart | dflByte | dflWord | dflFinish | dflAbort | illegal04
  | illegal08 | illegal15 | illegal16 | illegal18 | illegal20 | illegal40 | illegal80 => exact ⟨_, rfl⟩
  | _ => cases h

/-! ## Accesses other than a write to `CMD` (60_exceptions.md R202) -/

/-- Such an access is an acknowledgement or leaves the error record as it is. -/
theorem access_acknowledges_or_keeps_record {i : Instr} (hi : i.isCommand = false) (hw : ∀ w, i ≠ .wrCmd w)
    (s : State) : (∃ v, i = .wrStatus v ∧ exec i s = .next (acknowledge v s)) ∨
    ∃ t, exec i s = .next t ∧ t.err = s.err ∧ t.errCause = s.errCause ∧ t.errCmd = s.errCmd := by
  cases i with
  | wrStatus v => exact .inl ⟨v, rfl, rfl⟩
  | wrCmd w => exact absurd rfl (hw w)
  | rdDflOutData =>
    exact .inr ⟨readOut s, rfl, readOut_err s, readOut_errCause s, readOut_errCmd s⟩
  | nop | crcInit | crcByte | crcWord | dflStart | dflByte | dflWord | dflFinish | dflAbort | illegal04
  | illegal08 | illegal15 | illegal16 | illegal18 | illegal20 | illegal40 | illegal80 => cases hi
  | _ => exact .inr ⟨_, rfl, rfl, rfl, rfl⟩

/-- An acknowledgement sets no error bit. -/
theorem acknowledge_err_subset (v : Word) (s : State) :
    (acknowledge v s).err &&& s.err = (acknowledge v s).err := by
  rw [acknowledge_err, BitVec.and_comm, ← BitVec.and_assoc, BitVec.and_self]

/-! ## The obligations -/

/-- Settles O15: a failing check records its error, and without one the command runs under the record there is
and keeps it. -/
theorem firstFailingCheckDecidesTheError : Obligations.FirstFailingCheckDecidesTheError := by
  intro w s
  cases h : firstFailingCheck w s with
  | none =>
    obtain ⟨t, ht⟩ := exec_wrCmd_withRecord_of_not_failing h
    exact ⟨withRecord s.err s.errCause s.errCmd t, ht s.err s.errCause s.errCmd, rfl, rfl, rfl⟩
  | some c => cases c <;> exact exec_wrCmd_of_failing h

/-- Settles O16: such an access is an acknowledgement, which clears bits only, or leaves the record alone. -/
theorem onlyCmdWritesRaiseErrors : Obligations.OnlyCmdWritesRaiseErrors := by
  intro i s hi hw
  obtain ⟨v, rfl, hexec⟩ | ⟨t, hexec, herr, hcause, hcmd⟩ := access_acknowledges_or_keeps_record hi hw s
  · refine ⟨acknowledge v s, hexec, acknowledge_err_subset v s, ?_⟩
    obtain ⟨-, hack⟩ | ⟨-, hack⟩ := acknowledge_cases v s <;> rw [hack]
    · exact .inr ⟨⟨v, rfl⟩, rfl, rfl, rfl⟩
    · exact .inl ⟨rfl, rfl⟩
  · exact ⟨t, hexec, by rw [herr, BitVec.and_self], .inl ⟨hcause, hcmd⟩⟩

/-- Settles O18: the same check fails, or none does, under both records, and each outcome is the same state but
for the record. -/
theorem errorRecordGatesNoCommand : Obligations.ErrorRecordGatesNoCommand := by
  intro i s e c v hi
  obtain ⟨w, hw⟩ := encode_of_isCommand hi
  have hexec (u : State) : exec i u = exec (.wrCmd w) u := (exec_wrCmd_of_exec rfl hw).symm
  rw [hexec, hexec]
  cases h : firstFailingCheck w s with
  | none =>
    obtain ⟨t, ht⟩ := exec_wrCmd_withRecord_of_not_failing h
    exact ⟨_, _, ht s.err s.errCause s.errCmd, ht e c v, rfl⟩
  | some cause =>
    have h' := (firstFailingCheck_withRecord e c v s w).trans h
    refine ⟨_, _, exec_wrCmd_of_failing h, exec_wrCmd_of_failing h', ?_⟩
    cases cause <;> rfl

end Sys2Proof.Machine

/-! The statements of 70_reset_and_hazards.md: while reset is asserted no access has a step (R230), four writes
restore the reset state but for the level (R231), and the driver's writes may be issued in any order (R233). The
last two rest on what each of these writes does to any state. -/

namespace Sys2Proof.Machine

open Sys2Proof.Safety

/-! ## What is pending while reset is asserted (R230) -/

theorem refusalOf_inReset {s : State} (hr : s.inReset = true) (a : Word) (n : Nat) :
    refusalOf s a n = some .accessDuringReset := by
  simp only [refusalOf, hr, if_true]

/-- The reset input is driven by a step in every state, also where it is asserted already. -/
theorem step_drive {s : State} {asserted : Bool} {rest : List Event} (hp : s.pending = .reset asserted :: rest) :
    step s = .next (driveReset asserted (popEvent s)) := by
  have hf : fetch s = .drive asserted := fetch_of_pending hp
  simp only [step, hf]

/-! ## The writes that restore a unit's reset state (R231) -/

/-- The effect of `CRC.INIT` (40_crc.md R105). -/
def restartCrc (s : State) : State := { s with crcState := crcInitValue, crcCount := 0x00000000#32 }

theorem exec_wrCmd_crcInit (s : State) : exec (.wrCmd 0x01000000#32) s = .next (restartCrc s) :=
  exec_wrCmd_of_exec (exec_crcInit s) rfl

theorem exec_wrCmd_dflAbort (s : State) : exec (.wrCmd 0x14000000#32) s = .next (abortSession s) :=
  exec_wrCmd_of_exec (exec_dflAbort s) rfl

/-- `s` with nothing in its error record (10_state.md R47). -/
def clearRecord (s : State) : State := withRecord 0#5 none 0x00000000#32 s

/-- A write that acknowledges all five error bits leaves none, so the record is cleared with them. -/
theorem acknowledge_all (s : State) : acknowledge 0x00001F00#32 s = clearRecord s := by
  have hmask : clearMask 0x00001F00#32 = BitVec.allOnes 5 := by decide
  obtain ⟨-, hack⟩ | ⟨hleft, -⟩ := acknowledge_cases 0x00001F00#32 s
  · exact hack
  · exact absurd (by simp [hmask]) hleft

theorem exec_wrStatus_all (s : State) : exec (.wrStatus 0x00001F00#32) s = .next (clearRecord s) :=
  congrArg Host.Outcome.next (acknowledge_all s)

/-! ## Instructions that may change places (R233) -/

/-- Two instructions that lead from every state to the same outcome in either order. -/
def Interchangeable (i j : Instr) : Prop := ∀ s : State, execAll [i, j] s = execAll [j, i] s

theorem Interchangeable.symm {i j : Instr} (h : Interchangeable i j) : Interchangeable j i := fun s => (h s).symm

/-- Instructions whose effects commute are interchangeable. -/
theorem interchangeable_of_commute {i j : Instr} {f g : State → State} (hi : ∀ s, exec i s = .next (f s))
    (hj : ∀ s, exec j s = .next (g s)) (h : Function.Commute f g) : Interchangeable i j := by
  intro s
  rw [execAll_cons_of_next (hi s), execAll_cons_of_next (hj (f s)), execAll_cons_of_next (hj s),
    execAll_cons_of_next (hi (g s)), h s]

theorem execAll_completes (l : List Instr) (s : State) : ∃ t, execAll l s = .next t := by
  induction l generalizing s with
  | nil => exact ⟨s, rfl⟩
  | cons i l ih =>
    obtain ⟨t, ht⟩ := everyInstructionCompletes i s
    rw [execAll_cons_of_next ht]
    exact ih t

/-- A list of pairwise interchangeable instructions has one outcome, whatever their order. -/
theorem execAll_perm {l l' : List Instr} (hp : l.Perm l') (hl : l.Pairwise Interchangeable) (s : State) :
    execAll l s = execAll l' s := by
  induction hp generalizing s with
  | nil => rfl
  | cons i _ ih =>
    obtain ⟨t, ht⟩ := everyInstructionCompletes i s
    rw [execAll_cons_of_next ht, execAll_cons_of_next ht]
    exact ih hl.of_cons t
  | swap i j l =>
    obtain ⟨t, ht⟩ := execAll_completes [j, i] s
    have hswap : Interchangeable j i := List.rel_of_pairwise_cons hl List.mem_cons_self
    exact (execAll_append ht).trans (execAll_append ((hswap s).symm.trans ht)).symm
  | trans h₁ _ ih₁ ih₂ =>
    exact (ih₁ hl s).trans (ih₂ ((h₁.pairwise_iff Interchangeable.symm).mp hl) s)

/-- `DFL.ABORT`, `CRC.INIT` and the acknowledgement touch disjoint state. -/
theorem driverSteps_interchangeable :
    [Instr.wrCmd 0x14000000#32, .wrCmd 0x01000000#32, .wrStatus 0x00001F00#32].Pairwise Interchangeable := by
  have hinit : Interchangeable (.wrCmd 0x14000000#32) (.wrCmd 0x01000000#32) :=
    interchangeable_of_commute exec_wrCmd_dflAbort exec_wrCmd_crcInit fun _ => rfl
  have habort : Interchangeable (.wrCmd 0x14000000#32) (.wrStatus 0x00001F00#32) :=
    interchangeable_of_commute exec_wrCmd_dflAbort exec_wrStatus_all fun _ => rfl
  have hcrc : Interchangeable (.wrCmd 0x01000000#32) (.wrStatus 0x00001F00#32) :=
    interchangeable_of_commute exec_wrCmd_crcInit exec_wrStatus_all fun _ => rfl
  simp [hinit, habort, hcrc]

/-! ## The obligations -/

/-- Settles O53: each write restores its unit's fields, and together they are all but the level. -/
theorem fourWritesRestoreTheResetState : Obligations.FourWritesRestoreTheResetState := by
  intro s
  rw [execAll_cons_of_next (exec_wrCmd_crcInit s), execAll_cons_of_next (exec_wrCmd_dflAbort _),
    execAll_cons_of_next (exec_wrStatus_all _)]
  rfl

/-- Settles O54: the three are pairwise interchangeable, and every list of instructions completes. -/
theorem driverStepsCommute : Obligations.DriverStepsCommute := by
  intro s l hl
  obtain ⟨t, ht⟩ := execAll_completes [.wrCmd 0x14000000#32, .wrCmd 0x01000000#32, .wrStatus 0x00001F00#32] s
  exact ⟨t, (execAll_perm hl.symm driverSteps_interchangeable s).symm.trans ht, ht⟩

/-- Settles O11: the port refuses any access while reset is asserted, and the reset input can still be driven. -/
theorem noAccessHasAStepDuringReset : Obligations.NoAccessHasAStepDuringReset := by
  intro s rest a n v hr
  have hrefuse (e : Event) (he : e = .read a n ∨ e = .write a n v) :
      step { s with pending := e :: rest } = .refused .accessDuringReset :=
    step_of_requestOf_refuse rfl (requestOf_access_refused he (refusalOf_inReset hr a n))
  exact ⟨hrefuse _ (.inl rfl), hrefuse _ (.inr rfl), _, _, step_drive rfl, step_drive rfl⟩

end Sys2Proof.Machine
